-- ==== Sys2Proof/Word.lean ====
section
/-! DEFINITION. The words the codec moves (spec/00_scope.md R9): bytes, 7-bit addresses, 12-bit samples. -/

namespace Sys2Proof

/-- R9: an 8-bit unsigned value. -/
abbrev Byte := BitVec 8

/-- R9: a 7-bit unsigned value, a device address. -/
abbrev Bits7 := BitVec 7

/-- R9: a 12-bit unsigned value, one conversion result. -/
abbrev Sample := BitVec 12

end Sys2Proof
end

