-- ==== Sys2Proof/Config.lean ====
section
/-! DEFINITION. The closed enumerations of the request port, the field-code tables as plain data, and the one free value. -/

namespace Sys2Proof

/-- R75: the six reference-voltage choices. -/
inductive RefSel | ref0 | ref1 | ref2 | ref3 | ref4 | ref5
  deriving DecidableEq, Repr

/-- R77. -/
inductive Clock | internal | external
  deriving DecidableEq, Repr

/-- R77. -/
inductive Polarity | unipolar | bipolar
  deriving DecidableEq, Repr

/-- R77: the setup byte's reset choice. -/
inductive ResetSel | reset | noAction
  deriving DecidableEq, Repr

/-- R79: `scanX` is the fourth variant, which the source does not name. -/
inductive ScanMode | bank0 | scanX | bank6 | only
  deriving DecidableEq, Repr

/-- R82. -/
inductive InputMode | singleEnded | differential
  deriving DecidableEq, Repr

/-- R6: the OPEN parameters `REF_CODE`, `CLK_CODE`, `POL_CODE`, `RST_CODE`, `SCAN_CODE`, `MODE_CODE`, held as data
so that a claim can be made for every table (D5). Log 2. -/
structure Codes where
  ref0 : BitVec 3
  ref1 : BitVec 3
  ref2 : BitVec 3
  ref3 : BitVec 3
  ref4 : BitVec 3
  ref5 : BitVec 3
  clkInternal : BitVec 1
  clkExternal : BitVec 1
  polUnipolar : BitVec 1
  polBipolar : BitVec 1
  rstReset : BitVec 1
  rstNoAction : BitVec 1
  scanBank0 : BitVec 2
  scanX : BitVec 2
  scanBank6 : BitVec 2
  scanOnly : BitVec 2
  modeSingleEnded : BitVec 1
  modeDifferential : BitVec 1
  deriving DecidableEq, Repr

/-- R6: "Each `*_CODE` parameter must be injective on its enumeration". The field widths are the types'. -/
def Codes.wf (c : Codes) : Bool :=
  decide [c.ref0, c.ref1, c.ref2, c.ref3, c.ref4, c.ref5].Nodup
    && decide (c.clkInternal ≠ c.clkExternal)
    && decide (c.polUnipolar ≠ c.polBipolar)
    && decide (c.rstReset ≠ c.rstNoAction)
    && decide [c.scanBank0, c.scanX, c.scanBank6, c.scanOnly].Nodup
    && decide (c.modeSingleEnded ≠ c.modeDifferential)

/-- R21: "default device address 0x35 (7-bit)". -/
def Config.defaultAddr : Bits7 := 0x35

/-- The free value behind `DEV_SETUP` after an attempt whose delivery is uncertain (R221, R241, I4): which candidate
the `k`-th draw takes. It has no body, so no proof can know it. Log 10. -/
opaque Config.devDraw : Nat → Nat

end Sys2Proof
end

