-- ==== Sys2Proof/Syntax.lean ====
section
/-! DEFINITION. The instructions: one constructor per row of spec/opcode_table.json. The request rows carry the
arguments of R88 (integers unbounded, R89; enumerations closed, R90); the wire rows carry the raw fields of their
layout (R73, R78, R85). -/

namespace Sys2Proof

inductive Instr
  /-- SETUP, R160. -/
  | setup (ref : RefSel) (clk : Clock) (pol : Polarity) (rst : ResetSel)
  /-- READ_SINGLE, R162. -/
  | readSingle (ch : Int) (mode : InputMode)
  /-- READ_RANGE, R165; `stop` is the spec's `end`. -/
  | readRange (start stop : Int) (mode : InputMode)
  /-- READ_MULTIPLE, R168. -/
  | readMultiple (start count : Int) (mode : InputMode)
  /-- XFER, R171. -/
  | xfer (w : List Int) (n : Int)
  /-- RESERVED_OP, R91: OP 101, 110 or 111. -/
  | reservedOp (op : BitVec 3)
  /-- SETUP_BYTE, R73; `unused` is bit 0, which only an XFER can send as 1 (R91). -/
  | setupByte (ref : BitVec 3) (clk pol rst unused : BitVec 1)
  /-- CONFIG_BYTE_SCAN_BANK0, R78. -/
  | configBank0 (cs : BitVec 4) (mode : BitVec 1)
  /-- CONFIG_BYTE_SCAN_X, R78, R79. -/
  | configScanX (cs : BitVec 4) (mode : BitVec 1)
  /-- CONFIG_BYTE_SCAN_BANK6, R78. -/
  | configBank6 (cs : BitVec 4) (mode : BitVec 1)
  /-- CONFIG_BYTE_SCAN_ONLY, R78. -/
  | configOnly (cs : BitVec 4) (mode : BitVec 1)
  /-- RESULT_WORD, R85: `hi = pad ++ high`, `lo = low`. -/
  | resultWord (pad high : BitVec 4) (low : Byte)
  deriving DecidableEq, Repr

end Sys2Proof
end

