-- ==== Sys2Proof/WellFormed.lean ====
section
/-! DEFINITION. Which terms of `Instr` stand for an encoding of the table. -/

namespace Sys2Proof

/-- R91: only OP 101, 110 and 111 are reserved. Every other field is closed by its type (R90) or may hold any value
(R89: integers out of range are presented and rejected by the machine; R91: any command byte may be sent by XFER). -/
def Instr.wf : Instr → Bool
  | .setup _ _ _ _ => true
  | .readSingle _ _ => true
  | .readRange _ _ _ => true
  | .readMultiple _ _ _ => true
  | .xfer _ _ => true
  | .reservedOp op => decide (5 ≤ op.toNat)
  | .setupByte _ _ _ _ _ => true
  | .configBank0 _ _ => true
  | .configScanX _ _ => true
  | .configBank6 _ _ => true
  | .configOnly _ _ => true
  | .resultWord _ _ _ => true

end Sys2Proof
end

