-- ==== Sys2Proof/Decode.lean ====
section
/-! DEFINITION. The encodings of spec/30_encoding.md: the field codes, the byte layouts, the port items, the decoder and
the encoder. -/

namespace Sys2Proof

/-! ## Field codes -/

/-- The spec's proposed defaults (R76, R77, R80, R82), the codes of the MAX11612-MAX11617 family. PRESUMED, log 2. -/
def Codes.standard : Codes where
  ref0 := 0b000
  ref1 := 0b010
  ref2 := 0b100
  ref3 := 0b101
  ref4 := 0b110
  ref5 := 0b111
  clkInternal := 0
  clkExternal := 1
  polUnipolar := 0
  polBipolar := 1
  rstReset := 0
  rstNoAction := 1
  scanBank0 := 0b00
  scanX := 0b01
  scanBank6 := 0b10
  scanOnly := 0b11
  modeSingleEnded := 1
  modeDifferential := 0

/-- `REF_CODE`, R76. -/
def Codes.refCode (c : Codes) : RefSel → BitVec 3
  | .ref0 => c.ref0
  | .ref1 => c.ref1
  | .ref2 => c.ref2
  | .ref3 => c.ref3
  | .ref4 => c.ref4
  | .ref5 => c.ref5

/-- `CLK_CODE`, R77. -/
def Codes.clkCode (c : Codes) : Clock → BitVec 1
  | .internal => c.clkInternal
  | .external => c.clkExternal

/-- `POL_CODE`, R77. -/
def Codes.polCode (c : Codes) : Polarity → BitVec 1
  | .unipolar => c.polUnipolar
  | .bipolar => c.polBipolar

/-- `RST_CODE`, R77. -/
def Codes.rstCode (c : Codes) : ResetSel → BitVec 1
  | .reset => c.rstReset
  | .noAction => c.rstNoAction

/-- `SCAN_CODE`, R80. -/
def Codes.scanCode (c : Codes) : ScanMode → BitVec 2
  | .bank0 => c.scanBank0
  | .scanX => c.scanX
  | .bank6 => c.scanBank6
  | .only => c.scanOnly

/-- `MODE_CODE`, R82. -/
def Codes.modeCode (c : Codes) : InputMode → BitVec 1
  | .singleEnded => c.modeSingleEnded
  | .differential => c.modeDifferential

/-- The enumeration a 1-bit port field holds (R90); `CLK_CODE` is a bijection, so one of the two codes matches. -/
def Codes.clkOf (c : Codes) (b : BitVec 1) : Clock :=
  if b = c.clkInternal then .internal else .external

def Codes.polOf (c : Codes) (b : BitVec 1) : Polarity :=
  if b = c.polUnipolar then .unipolar else .bipolar

def Codes.rstOf (c : Codes) (b : BitVec 1) : ResetSel :=
  if b = c.rstReset then .reset else .noAction

def Codes.modeOf (c : Codes) (b : BitVec 1) : InputMode :=
  if b = c.modeSingleEnded then .singleEnded else .differential

/-- `SCAN_CODE` read backwards; it is a bijection (R80), so the last case is `SCAN_ONLY`'s own code. -/
def Codes.scanOf (c : Codes) (b : BitVec 2) : ScanMode :=
  if b = c.scanBank0 then .bank0
  else if b = c.scanX then .scanX
  else if b = c.scanBank6 then .bank6
  else .only

/-- R90: the index 0..5 that carries a `RefSel` on the request port. -/
def RefSel.index : RefSel → BitVec 3
  | .ref0 => 0
  | .ref1 => 1
  | .ref2 => 2
  | .ref3 => 3
  | .ref4 => 4
  | .ref5 => 5

/-- R90, R91: indices 6 and 7 are reserved. -/
def RefSel.ofIndex (b : BitVec 3) : Option RefSel :=
  if b = 0 then some .ref0
  else if b = 1 then some .ref1
  else if b = 2 then some .ref2
  else if b = 3 then some .ref3
  else if b = 4 then some .ref4
  else if b = 5 then some .ref5
  else none

/-! ## Byte layouts -/

/-- R73: marker 1, REF at 6:4, CLK at 3, POL at 2, RST at 1, bit 0. -/
def packSetup (ref : BitVec 3) (clk pol rst unused : BitVec 1) : Byte :=
  1#1 ++ ref ++ clk ++ pol ++ rst ++ unused

/-- R78: marker 0, SCAN at 6:5, CS at 4:1, MODE at 0. -/
def packConfig (scan : BitVec 2) (cs : BitVec 4) (mode : BitVec 1) : Byte :=
  0#1 ++ scan ++ cs ++ mode

/-- R72: bit 7 alone tells a setup byte from a config byte. -/
def isSetupByte (b : Byte) : Bool := b.getLsbD 7

/-! ## Port items -/

/-- R88-R90: a request as the fields of the request port. Only OP has a place the spec gives (bits 2:0); the other
fields stand beside it under their own names. `arg0` is `ch` or `start`; `arg1` is `end`, `count` or `n`; `wlist` is
XFER's `w`. Log 7. -/
structure PortWord where
  op : BitVec 3
  ref : BitVec 3
  clk : BitVec 1
  pol : BitVec 1
  rst : BitVec 1
  mode : BitVec 1
  arg0 : Int
  arg1 : Int
  wlist : List Int
  deriving DecidableEq, Repr

/-- A request with every field but OP zero. -/
def PortWord.blank (op : BitVec 3) : PortWord where
  op := op
  ref := 0
  clk := 0
  pol := 0
  rst := 0
  mode := 0
  arg0 := 0
  arg1 := 0
  wlist := []

/-- What a bus claim carries: a command byte (R72) or a result word, `hi` first (R85). -/
inductive WireItem
  | command (b : Byte)
  | word (hi lo : Byte)
  deriving DecidableEq, Repr

/-- What the decoder reads: an item of the request port (R88) or of a bus claim (R72, R85). Log 13. -/
inductive PortItem
  | request (p : PortWord)
  | command (b : Byte)
  | word (hi lo : Byte)
  deriving DecidableEq, Repr

/-! ## Decoding -/

/-- Why an item has no instruction. -/
inductive DecodeError
  /-- R91: a `ref` field of 6 or 7. -/
  | reservedRef (ref : BitVec 3)
  deriving DecidableEq, Repr

/-- R72, R73, R78: every byte is a command, classified by its bit 7. -/
def decodeCommand (c : Codes) (b : Byte) : Instr :=
  if isSetupByte b then
    .setupByte (b.extractLsb' 4 3) (b.extractLsb' 3 1) (b.extractLsb' 2 1) (b.extractLsb' 1 1) (b.extractLsb' 0 1)
  else
    match c.scanOf (b.extractLsb' 5 2) with
    | .bank0 => .configBank0 (b.extractLsb' 1 4) (b.extractLsb' 0 1)
    | .scanX => .configScanX (b.extractLsb' 1 4) (b.extractLsb' 0 1)
    | .bank6 => .configBank6 (b.extractLsb' 1 4) (b.extractLsb' 0 1)
    | .only => .configOnly (b.extractLsb' 1 4) (b.extractLsb' 0 1)

/-- R88: the operation is OP's; fields of other operations are not looked at. -/
def decodeRequest (c : Codes) (p : PortWord) : Except DecodeError Instr :=
  if p.op = 0 then
    match RefSel.ofIndex p.ref with
    | none => .error (.reservedRef p.ref)
    | some r => .ok (.setup r (c.clkOf p.clk) (c.polOf p.pol) (c.rstOf p.rst))
  else if p.op = 1 then .ok (.readSingle p.arg0 (c.modeOf p.mode))
  else if p.op = 2 then .ok (.readRange p.arg0 p.arg1 (c.modeOf p.mode))
  else if p.op = 3 then .ok (.readMultiple p.arg0 p.arg1 (c.modeOf p.mode))
  else if p.op = 4 then .ok (.xfer p.wlist p.arg1)
  else .ok (.reservedOp p.op)

/-- R72, R85: everything on the wire is an instruction. -/
def decodeWire (c : Codes) : WireItem → Instr
  | .command b => decodeCommand c b
  | .word hi lo => .resultWord (hi.extractLsb' 4 4) (hi.extractLsb' 0 4) lo

/-- The decoder: total, refusing by name. -/
def decodeItem (c : Codes) : PortItem → Except DecodeError Instr
  | .request p => decodeRequest c p
  | .command b => .ok (decodeWire c (.command b))
  | .word hi lo => .ok (decodeWire c (.word hi lo))

/-! ## Encoding -/

/-- The item that carries an instruction, from the same layouts (R73, R78, R85, R88, R90). -/
def encodeItem (c : Codes) : Instr → PortItem
  | .setup ref clk pol rst =>
    .request { PortWord.blank 0 with
      ref := ref.index, clk := c.clkCode clk, pol := c.polCode pol, rst := c.rstCode rst }
  | .readSingle ch mode => .request { PortWord.blank 1 with arg0 := ch, mode := c.modeCode mode }
  | .readRange start stop mode =>
    .request { PortWord.blank 2 with arg0 := start, arg1 := stop, mode := c.modeCode mode }
  | .readMultiple start count mode =>
    .request { PortWord.blank 3 with arg0 := start, arg1 := count, mode := c.modeCode mode }
  | .xfer w n => .request { PortWord.blank 4 with wlist := w, arg1 := n }
  | .reservedOp op => .request (PortWord.blank op)
  | .setupByte ref clk pol rst unused => .command (packSetup ref clk pol rst unused)
  | .configBank0 cs mode => .command (packConfig (c.scanCode .bank0) cs mode)
  | .configScanX cs mode => .command (packConfig (c.scanCode .scanX) cs mode)
  | .configBank6 cs mode => .command (packConfig (c.scanCode .bank6) cs mode)
  | .configOnly cs mode => .command (packConfig (c.scanCode .only) cs mode)
  | .resultWord pad high low => .word (pad ++ high) low

/-! ## The opcode table's numbering -/

/-- The port item a word of spec/opcode_table.json stands for. The table lists encodings of three interfaces in one
list, and its request rows and wire rows overlap as numbers: up to 8 bits, a word below 8 is a request's OP with zero
arguments and any other word is a command byte; above 8 bits it is a result word, `hi` in bits 15:8 as the row's
pattern is written. Log 16. -/
def tableItem (nbits w : Nat) : PortItem :=
  if nbits ≤ 8 then
    if w % 256 < 8 then .request (PortWord.blank (BitVec.ofNat 3 w)) else .command (BitVec.ofNat 8 w)
  else .word (BitVec.ofNat 8 (w / 256)) (BitVec.ofNat 8 w)

/-- The instruction the decoder reads from a word of the opcode table, under the default field codes (log 2). -/
def decodeTableWord (nbits w : Nat) : Option Instr :=
  (decodeItem Codes.standard (tableItem nbits w)).toOption

end Sys2Proof
end

