-- ==== Sys2Proof/Machine/State.lean ====
section
/-! DEFINITION. The machine's state as plain data (spec/10_state.md), its faults and refusals, and the state after reset. -/

namespace Sys2Proof.Machine

/-- R24: the sequencer register. -/
inductive Phase | idle | attempt | backoff
  deriving DecidableEq, Repr

/-- R88: the five operations. -/
inductive Op | setup | readSingle | readRange | readMultiple | xfer
  deriving DecidableEq, Repr

/-- R25, R88: the arguments of a request. -/
inductive Request
  | setup (ref : RefSel) (clk : Clock) (pol : Polarity) (rst : ResetSel)
  | readSingle (ch : Int) (mode : InputMode)
  | readRange (start stop : Int) (mode : InputMode)
  | readMultiple (start count : Int) (mode : InputMode)
  | xfer (w : List Int) (n : Int)
  deriving DecidableEq, Repr

/-- R26. -/
structure ScanPlan where
  scanMode : ScanMode
  baseChannel : Nat
  endChannel : Nat
  wordCount : Nat
  deriving DecidableEq, Repr

/-- R28: the three transient bus conditions. -/
inductive BusFaultKind | nack | arbLost | timeout
  deriving DecidableEq, Repr

/-- R52: what one `BusXfer` returns. -/
inductive BusOutcome
  | ok (bytes : List Byte)
  | fault (k : BusFaultKind)
  deriving DecidableEq, Repr

/-- R204. -/
inductive ErrorKind | ok | range | bus | protocol
  deriving DecidableEq, Repr

/-- R205. -/
inductive Cause
  | noCause | chRange | endRange | startGtEnd | countLow | countOver | byteDomain | negLength | lenMismatch
  deriving DecidableEq, Repr

/-- R203: what a rule raises. -/
inductive Error
  | range (c : Cause)
  | bus (k : BusFaultKind)
  | protocol (c : Cause)
  deriving DecidableEq, Repr

/-- R30. -/
inductive Payload
  | empty
  | sample (s : Sample)
  | seq (ss : List Sample)
  | map (ps : List (Nat × Sample))
  | bytes (bs : List Byte)
  deriving DecidableEq, Repr

/-- R29. -/
structure Response where
  kind : ErrorKind
  cause : Cause
  busf : Option BusFaultKind
  attempts : Nat
  payload : Payload
  deriving DecidableEq, Repr

/-- R32. -/
inductive Event
  | accept (op : Op) (req : Request)
  | attempt (addr : Bits7) (w : List Byte) (n : Nat) (out : BusOutcome)
  | wait (t : Nat)
  | respond (r : Response)
  deriving DecidableEq, Repr

/-- R55, R57: the bus claim in progress: the config byte selected in it, the words received in it, the items still to
pass on the wire, first one first, and the bytes its read returns. The model's own field: nothing of it outlives the
claim (R34, R66). Log 14. -/
structure Claim where
  selected : Option Byte
  words : List Sample
  pending : List WireItem
  got : List Byte
  deriving DecidableEq, Repr

/-- The machine. Every field is plain data; the groups follow INVENTORY.md's State list. -/
structure State where
  /-- R21. -/
  addr : Bits7
  /-- R22. -/
  maxRetries : Nat
  /-- R22. -/
  retryDelay : Nat
  /-- R6: the field-code tables. -/
  codes : Codes
  /-- R24. -/
  phase : Phase
  /-- R25. -/
  op : Op
  /-- R25. -/
  req : Request
  /-- R26. -/
  plan : Option ScanPlan
  /-- R27. -/
  wbuf : List Byte
  /-- R27. -/
  rlen : Nat
  /-- R28. -/
  attempts : Nat
  /-- R28. -/
  lastf : Option BusFaultKind
  /-- R29. -/
  rsp : Option Response
  /-- R32. -/
  hist : List Event
  /-- R33: the device's retained setup register, `none` where its value is unknown. -/
  devSetup : Option Byte
  /-- The bus claim in progress (log 14). -/
  claim : Option Claim
  /-- Requests presented and not yet taken, oldest first (R3, R219, log 6). -/
  reqPort : List PortWord
  /-- Outcomes of the `BusXfer` calls to come, the oracle of R53 (log 8). -/
  busPort : List BusOutcome
  /-- A codec reset is asserted (R240, R241, log 12). -/
  resetReq : Bool
  /-- The device has been power cycled (R243, log 12). -/
  deviceCycled : Bool
  /-- How many values have been drawn from `Config.devDraw` (log 10). -/
  draws : Nat
  deriving DecidableEq, Repr

/-- Why the machine stops. No rule of the spec reaches one: each answers a read the spec calls a modelling error. -/
inductive Fault
  /-- R37, I11: a working register that holds no value was read. Raised by the ATTEMPT step and by the end of a claim
  outside `PHASE = ATTEMPT` or `BACKOFF`, and by a read's completion without a plan. Safe: the machine stops. Log 5. -/
  | unwrittenRegister
  /-- R154: a single read's decode gave no sample, which no plan of the planner does. Raised by READ_SINGLE's
  completion. Safe: the machine stops. Log 5. -/
  | shortResult
  deriving DecidableEq, Repr

/-- What the machine gives no meaning. -/
inductive Refusal
  /-- An instruction not modelled yet. Safe. -/
  | notModelled (mnemonic : String)
  /-- R91, I5: OP 101, 110 or 111. Raised by RESERVED_OP's meaning. Safe: the spec refuses it too. -/
  | reservedOp (op : BitVec 3)
  /-- R91, I5: a SETUP whose `ref` field is 6 or 7. Raised by the step on the decoder's answer. Safe. -/
  | reservedRef (ref : BitVec 3)
  deriving DecidableEq, Repr

/-- The machine right after a codec reset that follows a device power-up: R36 where it gives a value, log 2, 3, 4, 22
where it gives none. -/
def State.reset : State where
  addr := Config.defaultAddr
  maxRetries := 0
  retryDelay := 0
  codes := Codes.standard
  phase := .idle
  op := .setup
  req := .setup .ref0 .internal .unipolar .reset
  plan := none
  wbuf := []
  rlen := 0
  attempts := 0
  lastf := none
  rsp := none
  hist := []
  devSetup := none
  claim := none
  reqPort := []
  busPort := []
  resetReq := false
  deviceCycled := false
  draws := 0

end Sys2Proof.Machine
end

