-- ==== Sys2Proof/Machine/Operands.lean ====
section
/-! DEFINITION. The argument checks and narrowings of a request, in the order of R210. -/

namespace Sys2Proof.Machine

/-- R88: the operation of a request. -/
def Request.op : Request → Op
  | .setup _ _ _ _ => .setup
  | .readSingle _ _ => .readSingle
  | .readRange _ _ _ => .readRange
  | .readMultiple _ _ _ => .readMultiple
  | .xfer _ _ => .xfer

/-- R88: the operation codes. -/
def Op.code : Op → BitVec 3
  | .setup => 0b000
  | .readSingle => 0b001
  | .readRange => 0b010
  | .readMultiple => 0b011
  | .xfer => 0b100

/-- R111: `0 ≤ ch ≤ 11`, on the integer before it is narrowed. -/
def channelOk (ch : Int) : Bool := decide (0 ≤ ch) && decide (ch ≤ 11)

/-- R131: the single-byte domain. -/
def byteOk (x : Int) : Bool := decide (0 ≤ x) && decide (x ≤ 255)

/-- R110: `ch[3:0]`. -/
def narrowChannel (ch : Int) : BitVec 4 := BitVec.ofInt 4 ch

/-- R171: `byte(x)`. -/
def narrowByte (x : Int) : Byte := BitVec.ofInt 8 x

/-- R131: every element of the write list, then the read length; BYTE_DOMAIN comes first (R210). -/
def checkTransfer (w : List Int) (n : Int) : Except Error (List Byte × Nat) :=
  if w.all byteOk = false then .error (.range .byteDomain)
  else if n < 0 then .error (.range .negLength)
  else .ok (w.map narrowByte, n.toNat)

end Sys2Proof.Machine
end

