-- ==== Sys2Proof/Machine/Planner.lean ====
section
/-! DEFINITION. The ChannelScanPlanner (spec/42_scan_planner.md). -/

namespace Sys2Proof.Machine

/-- PLAN_BANK, R120. Every check comes before the arithmetic, so `toNat` loses nothing (R121). -/
def planBank (start stop : Int) : Except Error ScanPlan :=
  if channelOk start = false then .error (.range .chRange)
  else if channelOk stop = false then .error (.range .endRange)
  else if start > stop then .error (.range .startGtEnd)
  else if start < 6 then
    .ok { scanMode := .bank0, baseChannel := 0, endChannel := stop.toNat, wordCount := (stop - 0 + 1).toNat }
  else
    .ok { scanMode := .bank6, baseChannel := 6, endChannel := stop.toNat, wordCount := (stop - 6 + 1).toNat }

/-- PLAN_SINGLE, R122. -/
def planSingle (ch : Int) : Except Error ScanPlan :=
  if channelOk ch = false then .error (.range .chRange)
  else .ok { scanMode := .only, baseChannel := ch.toNat, endChannel := ch.toNat, wordCount := 1 }

/-- PLAN_COUNT, R126. -/
def planCount (start count : Int) : Except Error ScanPlan :=
  if channelOk start = false then .error (.range .chRange)
  else if count < 1 then .error (.range .countLow)
  else if start + count - 1 > 11 then .error (.range .countOver)
  else planBank start (start + count - 1)

end Sys2Proof.Machine
end

