-- ==== Sys2Proof/Machine/Encoders.lean ====
section
/-! DEFINITION. The SetupEncoder (spec/40_setup_encoder.md) and the ConfigEncoder (spec/41_config_encoder.md). -/

namespace Sys2Proof.Machine

/-- ENC_SETUP, R100: it cannot fail. -/
def encSetup (c : Codes) (ref : RefSel) (clk : Clock) (pol : Polarity) (rst : ResetSel) : Byte :=
  packSetup (c.refCode ref) (c.clkCode clk) (c.polCode pol) (c.rstCode rst) 0

/-- ENC_CONFIG, R110, R111. -/
def encConfig (c : Codes) (scan : ScanMode) (ch : Int) (mode : InputMode) : Except Error Byte :=
  if channelOk ch = false then .error (.range .chRange)
  else .ok (packConfig (c.scanCode scan) (narrowChannel ch) (c.modeCode mode))

end Sys2Proof.Machine
end

