-- ==== Sys2Proof/Machine/ResultDecoder.lean ====
section
/-! DEFINITION. The ResultDecoder (spec/44_result_decoder.md). -/

namespace Sys2Proof.Machine

/-- UNPACK, R150: `((hi & 0x0F) << 8) | lo` in 12 bits. -/
def unpack (hi lo : Byte) : Sample :=
  ((hi &&& 0x0F).zeroExtend 12 <<< 8) ||| lo.zeroExtend 12

/-- R155: the word encoding of a sample, for any padding nibble. -/
def packWord (v : Sample) (pad : BitVec 4) : Byte × Byte :=
  (pad ++ v.extractLsb' 8 4, v.extractLsb' 0 8)

/-- R56: the stream's consecutive `(hi, lo)` pairs, each unpacked. A last odd byte belongs to no word (R59). -/
def unpackWords : List Byte → List Sample
  | hi :: lo :: rest => unpack hi lo :: unpackWords rest
  | _ => []

/-- DECODE, R151: the count check on the whole list first (R152), then discard and take. -/
def decodeResult (raw : List Byte) (p : ScanPlan) (start count : Nat) : Except Error (List Sample) :=
  if raw.length ≠ 2 * p.wordCount then .error (.protocol .lenMismatch)
  else .ok (((unpackWords raw).drop (start - p.baseChannel)).take count)

end Sys2Proof.Machine
end

