-- ==== Sys2Proof/Machine/Ops.lean ====
section
/-! DEFINITION. The named operations over the state: ending an operation (Respond and End), the working registers, the
bus claim and the device's setup register, codec reset and device power cycle. -/

namespace Sys2Proof.Machine

/-! ## Errors and the end of an operation -/

/-- R204, R206. -/
def Error.kind : Error → ErrorKind
  | .range _ => .range
  | .bus _ => .bus
  | .protocol _ => .protocol

/-- R206: a BusFault has no cause. -/
def Error.cause : Error → Cause
  | .range c => c
  | .bus _ => .noCause
  | .protocol c => c

/-- R206: only a BusFault names a fault kind. -/
def Error.busf : Error → Option BusFaultKind
  | .range _ => none
  | .bus k => some k
  | .protocol _ => none

/-- The response to a payload (spec/45_operations.md, `Respond`). -/
def okResponse (p : Payload) (attempts : Nat) : Response where
  kind := .ok
  cause := .noCause
  busf := none
  attempts := attempts
  payload := p

/-- R206, R213: the response to an error. -/
def errorResponse (e : Error) (attempts : Nat) : Response where
  kind := e.kind
  cause := e.cause
  busf := e.busf
  attempts := attempts
  payload := .empty

/-- The one write of `RSP` that ends an operation, by `Respond(payload)` (spec/45_operations.md) or by `End(e)` (R213):
`RSP`, `PHASE` and `HIST`. -/
def State.endOperation (r : Response) (s : State) : State :=
  { s with rsp := some r, phase := .idle, hist := s.hist ++ [.respond r] }

/-- Error entry, `End(e)`, R213. There is no return from an error (R214): the next accept clears `RSP`. -/
def State.endWith (e : Error) (s : State) : State := s.endOperation (errorResponse e s.attempts)

/-! ## The working registers -/

/-- What the steps of an operation read (R25-R27). -/
structure Work where
  req : Request
  plan : Option ScanPlan
  wbuf : List Byte
  rlen : Nat
  deriving DecidableEq, Repr

/-- R37, I11: the working registers hold no value in IDLE. -/
def State.readWork (s : State) : Option Work :=
  if s.phase = .idle then none else some { req := s.req, plan := s.plan, wbuf := s.wbuf, rlen := s.rlen }

/-- The first lines of ACCEPT, R136. -/
def State.latch (req : Request) (s : State) : State :=
  { s with
    rsp := none, op := req.op, req := req, attempts := 0, lastf := none,
    hist := s.hist ++ [.accept req.op req] }

/-- R133: issuing an attempt counts it and records it. -/
def State.issueAttempt (w : List Byte) (n : Nat) (out : BusOutcome) (s : State) : State :=
  { s with attempts := s.attempts + 1, hist := s.hist ++ [.attempt s.addr w n out] }

/-! ## The bus claim and the device -/

/-- R53: "when `n = 0`, an `Ok` outcome carries `bytes = []`"; no other law binds an outcome. Log 9. -/
def BusOutcome.admitted (n : Nat) : BusOutcome → BusOutcome
  | .ok bytes => if n = 0 then .ok [] else .ok bytes
  | .fault k => .fault k

/-- R57, R72: one command byte reaches the device in the claim in progress. A setup byte is retained; a config byte
selects the conversion of the read in the same claim. Outside a claim nothing is delivered (R2, R33). -/
def State.deliverByte (b : Byte) (s : State) : State :=
  match s.claim with
  | none => s
  | some c =>
    if isSetupByte b then { s with devSetup := some b }
    else { s with claim := some { c with selected := some b } }

/-- R57: "delivered to the device in order". -/
def State.deliver (bs : List Byte) (s : State) : State :=
  bs.foldl (fun t b => t.deliverByte b) s

/-- R56, R150: one result word of the claim arrives. -/
def State.receiveWord (hi lo : Byte) (s : State) : State :=
  match s.claim with
  | none => s
  | some c => { s with claim := some { c with words := c.words ++ [unpack hi lo] } }

/-- R56: the words of a read, in arrival order. -/
def State.receive : List Byte → State → State
  | hi :: lo :: rest, s => State.receive rest (s.receiveWord hi lo)
  | _, s => s

/-- R55: the claim begins. -/
def State.openClaim (s : State) : State :=
  { s with claim := some { selected := none, words := [], pending := [], got := [] } }

/-- R56: the result words of a read stream. -/
def wordItems : List Byte → List WireItem
  | hi :: lo :: rest => .word hi lo :: wordItems rest
  | _ => []

/-- R52: what passes on the wire in a claim: the bytes written, then the words read. -/
def claimItems (w bytes : List Byte) : List WireItem := w.map WireItem.command ++ wordItems bytes

/-- A claim at its begin, with all it will carry still to pass (log 14). -/
def State.beginClaim (w bytes : List Byte) (s : State) : State :=
  { s with claim := some { selected := none, words := [], pending := claimItems w bytes, got := bytes } }

/-- The state once the claim's next item is taken off the wire. -/
def State.popWire (s : State) : State :=
  match s.claim with
  | none => s
  | some c => { s with claim := some { c with pending := c.pending.tail } }

/-- R55: "The claim ends with the attempt's outcome". -/
def State.closeClaim (s : State) : State := { s with claim := none }

/-- R55, R57: a successful attempt, in one uninterrupted claim: the writes, then the read. -/
def State.runClaim (w bytes : List Byte) (s : State) : State :=
  (((s.openClaim).deliver w).receive bytes).closeClaim

/-- R221, I4: the values `DEV_SETUP` may have: the one before, or any setup byte of the write list. -/
def setupCandidates (old : Option Byte) (w : List Byte) : List (Option Byte) :=
  old :: (w.filter isSetupByte).map some

/-- R57, R221: `DEV_SETUP` after every byte of `w` has been delivered: the last setup byte, or the value before. -/
def lastSetup (old : Option Byte) (w : List Byte) : Option Byte :=
  match (w.filter isSetupByte).getLast? with
  | none => old
  | some b => some b

/-- R221, R241: the draw. A write list without setup bytes leaves nothing uncertain and draws nothing. Log 10. -/
def State.drawSetup (w : List Byte) (s : State) : State :=
  if (w.filter isSetupByte).isEmpty then s
  else
    let cands := setupCandidates s.devSetup w
    { s with
      devSetup := cands.getD (Config.devDraw s.draws % cands.length) s.devSetup,
      draws := s.draws + 1 }

/-! ## External events -/

/-- R241: what a reset does to the device's register: a draw if an operation was in flight. -/
def State.abandon (s : State) : State := if s.phase = .idle then s else s.drawSetup s.wbuf

/-- R240, R241: a codec reset. The values are those of R36 and, for the registers it leaves without one, those of
`State.reset` (log 4). The constants, the ports and the device are not reset (R243); nothing is sent. -/
def State.codecReset (s : State) : State :=
  { s.abandon with
    phase := .idle
    op := State.reset.op
    req := State.reset.req
    plan := State.reset.plan
    wbuf := State.reset.wbuf
    rlen := State.reset.rlen
    attempts := 0
    lastf := State.reset.lastf
    rsp := none
    hist := []
    claim := none
    resetReq := false }

/-- R243: after a device power cycle the setup register's value is unknown. -/
def State.powerCycle (s : State) : State := { s with devSetup := none, deviceCycled := false }

end Sys2Proof.Machine
end

