-- ==== Sys2Proof/Machine/Setup.lean ====
section
/-! DEFINITION. SETUP's Prepare and Finish (spec/45_operations.md R160). -/

namespace Sys2Proof.Machine

/-- `Ready(plan, wbuf, rlen)` of spec/45_operations.md. -/
structure Prepared where
  plan : Option ScanPlan
  wbuf : List Byte
  rlen : Nat
  deriving DecidableEq, Repr

/-- How a Finish ends its operation: `Respond(payload)` or `End(e)`. -/
inductive Completion
  | payload (p : Payload)
  | error (e : Error)
  deriving DecidableEq, Repr

/-- The response a completion writes (`Respond`, or `End`, R213). -/
def Completion.response (attempts : Nat) : Completion → Response
  | .payload p => okResponse p attempts
  | .error e => errorResponse e attempts

/-- R160: one setup byte, no read, no RangeError. -/
def prepareSetup (c : Codes) (ref : RefSel) (clk : Clock) (pol : Polarity) (rst : ResetSel) : Except Error Prepared :=
  .ok { plan := none, wbuf := [encSetup c ref clk pol rst], rlen := 0 }

/-- R160. -/
def finishSetup : Except Fault Completion := .ok (.payload .empty)

end Sys2Proof.Machine
end

