-- ==== Sys2Proof/Machine/Reads.lean ====
section
/-! DEFINITION. The Prepare and Finish of READ_SINGLE, READ_RANGE and READ_MULTIPLE (spec/45_operations.md). -/

namespace Sys2Proof.Machine

/-- The last two lines every read's Prepare shares (R162, R165, R168): the config byte for the plan's end channel and
a read of two bytes per word. -/
def prepareRead (c : Codes) (mode : InputMode) : Except Error ScanPlan → Except Error Prepared
  | .error e => .error e
  | .ok p =>
    match encConfig c p.scanMode p.endChannel mode with
    | .error e => .error e
    | .ok b => .ok { plan := some p, wbuf := [b], rlen := 2 * p.wordCount }

/-- R162. -/
def prepareReadSingle (c : Codes) (ch : Int) (mode : InputMode) : Except Error Prepared :=
  prepareRead c mode (planSingle ch)

/-- R165. -/
def prepareReadRange (c : Codes) (start stop : Int) (mode : InputMode) : Except Error Prepared :=
  prepareRead c mode (planBank start stop)

/-- R168. -/
def prepareReadMultiple (c : Codes) (start count : Int) (mode : InputMode) : Except Error Prepared :=
  prepareRead c mode (planCount start count)

/-- R162: `SAMPLE(ss[0])`. -/
def finishReadSingle (ch : Int) (plan : Option ScanPlan) (bytes : List Byte) : Except Fault Completion :=
  match plan with
  | none => .error .unwrittenRegister
  | some p =>
    match decodeResult bytes p ch.toNat 1 with
    | .error e => .ok (.error e)
    | .ok [] => .error .shortResult
    | .ok (x :: _) => .ok (.payload (.sample x))

/-- R165: the pairs `(start + j, ss[j])` in ascending order. -/
def labelSamples (start : Nat) (ss : List Sample) : List (Nat × Sample) :=
  ss.mapIdx fun j x => (start + j, x)

/-- R165. -/
def finishReadRange (start stop : Int) (plan : Option ScanPlan) (bytes : List Byte) : Except Fault Completion :=
  match plan with
  | none => .error .unwrittenRegister
  | some p =>
    match decodeResult bytes p start.toNat (stop - start + 1).toNat with
    | .error e => .ok (.error e)
    | .ok ss => .ok (.payload (.map (labelSamples start.toNat ss)))

/-- R168. -/
def finishReadMultiple (start count : Int) (plan : Option ScanPlan) (bytes : List Byte) : Except Fault Completion :=
  match plan with
  | none => .error .unwrittenRegister
  | some p =>
    match decodeResult bytes p start.toNat count.toNat with
    | .error e => .ok (.error e)
    | .ok ss => .ok (.payload (.seq ss))

end Sys2Proof.Machine
end

