-- ==== Sys2Proof/Machine/Xfer.lean ====
section
/-! DEFINITION. XFER's Prepare and Finish (spec/45_operations.md R171). -/

namespace Sys2Proof.Machine

/-- R171: the caller's bytes unchanged. -/
def prepareXfer (w : List Int) (n : Int) : Except Error Prepared :=
  match checkTransfer w n with
  | .error e => .error e
  | .ok (bs, k) => .ok { plan := none, wbuf := bs, rlen := k }

/-- R171, D10. -/
def finishXfer (n : Int) (bytes : List Byte) : Except Fault Completion :=
  if n = 0 then .ok (.payload .empty)
  else if (bytes.length : Int) ≠ n then .ok (.error (.protocol .lenMismatch))
  else .ok (.payload (.bytes bytes))

end Sys2Proof.Machine
end

