-- ==== Sys2Proof/Machine/Sequencer.lean ====
section
/-! DEFINITION. The sequencer's steps ACCEPT, ATTEMPT and BACKOFF (spec/43_bus_transaction.md R135-R139), shared by
the five request operations, and which of them the state enables. -/

namespace Sys2Proof.Machine

/-- `Prepare_op(req)`, spec/45_operations.md. -/
def prepare (c : Codes) : Request → Except Error Prepared
  | .setup ref clk pol rst => prepareSetup c ref clk pol rst
  | .readSingle ch mode => prepareReadSingle c ch mode
  | .readRange start stop mode => prepareReadRange c start stop mode
  | .readMultiple start count mode => prepareReadMultiple c start count mode
  | .xfer w n => prepareXfer w n

/-- `Finish_op(bytes)`, spec/45_operations.md: how it ends the operation. -/
def finish (req : Request) (plan : Option ScanPlan) (bytes : List Byte) : Except Fault Completion :=
  match req with
  | .setup _ _ _ _ => finishSetup
  | .readSingle ch _ => finishReadSingle ch plan bytes
  | .readRange start stop _ => finishReadRange start stop plan bytes
  | .readMultiple start count _ => finishReadMultiple start count plan bytes
  | .xfer _ n => finishXfer n bytes

/-- R138: the completion, written to `RSP` (`Respond`, or `End`). -/
def State.complete (req : Request) (plan : Option ScanPlan) (bytes : List Byte) (s : State) :
    Host.Outcome State Fault Refusal :=
  match finish req plan bytes with
  | .error f => .fault f
  | .ok c => .next (s.endOperation (c.response s.attempts))

/-- ACCEPT, R136. A request presented outside IDLE is not accepted and changes nothing (R219, log 19). -/
def accept (req : Request) (s : State) : Host.Outcome State Fault Refusal :=
  if s.phase ≠ .idle then .next s
  else
    match prepare s.codes req with
    | .error e => .next ((s.latch req).endWith e)
    | .ok pr =>
      let t : State := { s.latch req with plan := pr.plan, wbuf := pr.wbuf, rlen := pr.rlen }
      if pr.wbuf = [] ∧ pr.rlen = 0 then t.complete req pr.plan []
      else .next { t with phase := .attempt }

/-- R134, R139: after the attempt numbered `ATTEMPTS` faulted with `k`, a retry is made exactly when
`ATTEMPTS ≤ MAX_RETRIES`; otherwise the fault surfaces. -/
def retryOrEnd (k : BusFaultKind) (s : State) : Host.Outcome State Fault Refusal :=
  if s.attempts ≤ s.maxRetries then .next { s with phase := .backoff }
  else .next (s.endWith (.bus k))

/-- ATTEMPT, R137. While the bus has not returned, the codec stays as it is (R252, I13, log 8). -/
def attemptStep (s : State) : Host.Outcome State Fault Refusal :=
  match s.busPort with
  | [] => .next s
  | raw :: rest =>
    match s.readWork with
    | none => .fault .unwrittenRegister
    | some wk =>
      let out := raw.admitted wk.rlen
      let t := State.issueAttempt wk.wbuf wk.rlen out { s with busPort := rest }
      match out with
      | .ok bytes => (t.runClaim wk.wbuf bytes).complete wk.req wk.plan bytes
      | .fault k =>
        retryOrEnd k { t.drawSetup wk.wbuf with lastf := some k }

/-- The end of a claim all of whose items have passed: the operation completes with the bytes read (R55, R138). Only a
claim run item by item gets here; the ATTEMPT step runs its claim whole (log 14). -/
def finishClaim (got : List Byte) (s : State) : Host.Outcome State Fault Refusal :=
  match s.readWork with
  | none => .fault .unwrittenRegister
  | some wk => s.closeClaim.complete wk.req wk.plan got

/-- BACKOFF, R135. -/
def backoffStep (s : State) : Host.Outcome State Fault Refusal :=
  .next { s with hist := s.hist ++ [.wait s.retryDelay], phase := .attempt }

/-- What a state enables next. -/
inductive Action
  | reset
  | power
  | attempt
  | wire (x : WireItem)
  | endClaim (got : List Byte)
  | backoff
  | waitRequest
  | take (item : PortWord)
  deriving DecidableEq, Repr

/-- Reset and power cycle come before the sequencer (log 12); in ATTEMPT a claim in progress goes on (log 14); in IDLE
the oldest presented request is taken (R136, R219, log 6), and with none presented the codec waits (log 11). -/
def nextAction (s : State) : Action :=
  if s.resetReq then .reset
  else if s.deviceCycled then .power
  else
    match s.phase with
    | .attempt =>
      match s.claim with
      | none => .attempt
      | some c =>
        match c.pending with
        | [] => .endClaim c.got
        | x :: _ => .wire x
    | .backoff => .backoff
    | .idle =>
      match s.reqPort with
      | [] => .waitRequest
      | item :: _ => .take item

/-- The state once the oldest presented request is taken off the port. -/
def State.popRequest (s : State) : State := { s with reqPort := s.reqPort.tail }

/-- R91: the refusal of a request the decoder gives no instruction. -/
def refusalOf : DecodeError → Refusal
  | .reservedRef r => .reservedRef r

end Sys2Proof.Machine
end

