-- ==== Sys2Proof/Machine/RequestOps.lean ====
section
/-! DEFINITION. The meanings of the five request operations (spec/45_operations.md): each is the ACCEPT step of its
own request; its ATTEMPT and BACKOFF steps follow in later steps of the machine. RESERVED_OP is refused. -/

namespace Sys2Proof.Machine

/-- SETUP, R160. -/
def execSetup (ref : RefSel) (clk : Clock) (pol : Polarity) (rst : ResetSel) (s : State) :
    Host.Outcome State Fault Refusal :=
  accept (.setup ref clk pol rst) s

/-- READ_SINGLE, R162. -/
def execReadSingle (ch : Int) (mode : InputMode) (s : State) : Host.Outcome State Fault Refusal :=
  accept (.readSingle ch mode) s

/-- READ_RANGE, R165. -/
def execReadRange (start stop : Int) (mode : InputMode) (s : State) : Host.Outcome State Fault Refusal :=
  accept (.readRange start stop mode) s

/-- READ_MULTIPLE, R168. -/
def execReadMultiple (start count : Int) (mode : InputMode) (s : State) : Host.Outcome State Fault Refusal :=
  accept (.readMultiple start count mode) s

/-- XFER, R171. -/
def execXfer (w : List Int) (n : Int) (s : State) : Host.Outcome State Fault Refusal :=
  accept (.xfer w n) s

/-- RESERVED_OP, R91: "The model refuses such a request (it gives it no meaning)". -/
def execReservedOp (op : BitVec 3) (_ : State) : Host.Outcome State Fault Refusal :=
  .refused (.reservedOp op)

end Sys2Proof.Machine
end

