-- ==== Sys2Proof/Machine/WireOps.lean ====
section
/-! DEFINITION. The meanings of the wire formats: a command byte delivered to the device (R57, R72) and a result word
received from it (R56, R150), in the bus claim in progress. A successful attempt is made of these (log 13), and outside
a claim none of them has an effect: BusTransaction alone touches the bus (R2). -/

namespace Sys2Proof.Machine

/-- SETUP_BYTE, R57: "sets `DEV_SETUP` to that byte". -/
def execSetupByte (ref : BitVec 3) (clk pol rst unused : BitVec 1) (s : State) :
    Host.Outcome State Fault Refusal :=
  .next (s.deliverByte (packSetup ref clk pol rst unused))

/-- CONFIG_BYTE_SCAN_BANK0, R57. -/
def execConfigBank0 (cs : BitVec 4) (mode : BitVec 1) (s : State) : Host.Outcome State Fault Refusal :=
  .next (s.deliverByte (packConfig (s.codes.scanCode .bank0) cs mode))

/-- CONFIG_BYTE_SCAN_X, R57. -/
def execConfigScanX (cs : BitVec 4) (mode : BitVec 1) (s : State) : Host.Outcome State Fault Refusal :=
  .next (s.deliverByte (packConfig (s.codes.scanCode .scanX) cs mode))

/-- CONFIG_BYTE_SCAN_BANK6, R57. -/
def execConfigBank6 (cs : BitVec 4) (mode : BitVec 1) (s : State) : Host.Outcome State Fault Refusal :=
  .next (s.deliverByte (packConfig (s.codes.scanCode .bank6) cs mode))

/-- CONFIG_BYTE_SCAN_ONLY, R57. -/
def execConfigOnly (cs : BitVec 4) (mode : BitVec 1) (s : State) : Host.Outcome State Fault Refusal :=
  .next (s.deliverByte (packConfig (s.codes.scanCode .only) cs mode))

/-- RESULT_WORD, R150: the padding nibble is carried and ignored (R86). -/
def execResultWord (pad high : BitVec 4) (low : Byte) (s : State) : Host.Outcome State Fault Refusal :=
  .next (s.receiveWord (pad ++ high) low)

end Sys2Proof.Machine
end

