-- ==== Sys2Proof/Machine/Dispatch.lean ====
section
/-! DEFINITION. One arm per instruction. -/

namespace Sys2Proof.Machine

def exec (i : Instr) (s : State) : Host.Outcome State Fault Refusal :=
  match i with
  | .setup ref clk pol rst => Sys2Proof.Machine.execSetup ref clk pol rst s
  | .readSingle ch mode => Sys2Proof.Machine.execReadSingle ch mode s
  | .readRange start stop mode => Sys2Proof.Machine.execReadRange start stop mode s
  | .readMultiple start count mode => Sys2Proof.Machine.execReadMultiple start count mode s
  | .xfer w n => Sys2Proof.Machine.execXfer w n s
  | .reservedOp op => Sys2Proof.Machine.execReservedOp op s
  | .setupByte ref clk pol rst unused => Sys2Proof.Machine.execSetupByte ref clk pol rst unused s
  | .configBank0 cs mode => Sys2Proof.Machine.execConfigBank0 cs mode s
  | .configScanX cs mode => Sys2Proof.Machine.execConfigScanX cs mode s
  | .configBank6 cs mode => Sys2Proof.Machine.execConfigBank6 cs mode s
  | .configOnly cs mode => Sys2Proof.Machine.execConfigOnly cs mode s
  | .resultWord pad high low => Sys2Proof.Machine.execResultWord pad high low s

end Sys2Proof.Machine
end

