-- ==== Sys2Proof/Machine/Step.lean ====
section
/-! DEFINITION. One step of the machine. -/

namespace Sys2Proof.Machine

/-- The step the state enables (`nextAction`). In IDLE it takes the oldest presented request, decodes it and runs it; in
a claim in progress it runs the next item on the wire. -/
def step (s : State) : Host.Outcome State Fault Refusal :=
  match nextAction s with
  | .reset => .next s.codecReset
  | .power => .next s.powerCycle
  | .attempt => attemptStep s
  | .wire x => exec (decodeWire s.codes x) s.popWire
  | .endClaim got => finishClaim got s
  | .backoff => backoffStep s
  | .waitRequest => .next s
  | .take item =>
    match decodeRequest s.codes item with
    | .error e => .refused (refusalOf e)
    | .ok i => exec i s.popRequest

/-- `s` in a claim in progress with `x` the next item on the wire. -/
def State.placeWire (x : WireItem) (s : State) : State :=
  let c := s.claim.getD { selected := none, words := [], pending := [], got := [] }
  { s with
    phase := .attempt, resetReq := false, deviceCycled := false, claim := some { c with pending := x :: c.pending } }

/-- `s` with `p` the next request to be taken, in a codec that is ready for it (R136, R242). -/
def State.placeRequest (p : PortWord) (s : State) : State :=
  { s with phase := .idle, resetReq := false, deviceCycled := false, claim := none, reqPort := p :: s.reqPort }

/-- `s` with the item a table word stands for placed where the machine takes such an item: a request on the request
port, a wire format in the claim in progress. Log 16, log 18. -/
def State.withFetchWord (s : State) (nbits w : Nat) : State :=
  match tableItem nbits w with
  | .request p => s.placeRequest p
  | .command b => s.placeWire (.command b)
  | .word hi lo => s.placeWire (.word hi lo)

end Sys2Proof.Machine
end

