-- ==== Sys2Proof/Machine/Exec.lean ====
section
/-! DEFINITION. EXEC as one procedure (spec/43_bus_transaction.md R140), beside the sequencer's steps, with which it
agrees (R141). -/

namespace Sys2Proof.Machine

/-- How a run of EXEC ends; `waiting` where the outcomes given run out first (R252). -/
inductive ExecResult
  | bytes (bs : List Byte)
  | error (e : Error)
  | waiting
  deriving DecidableEq, Repr

/-- What a run of EXEC leaves: R140's "State written" and its result. -/
structure ExecRun where
  attempts : Nat
  lastf : Option BusFaultKind
  events : List Event
  result : ExecResult
  rest : List BusOutcome
  deriving DecidableEq, Repr

/-- The loop of R140, over the outcomes `BusXfer` returns. `events` are those so far. -/
def execLoop (addr : Bits7) (maxRetries retryDelay : Nat) (w : List Byte) (n : Nat)
    (attempts : Nat) (lastf : Option BusFaultKind) (events : List Event) : List BusOutcome → ExecRun
  | [] => { attempts, lastf, events, result := .waiting, rest := [] }
  | raw :: rest =>
    let out := raw.admitted n
    let events := events ++ [.attempt addr w n out]
    match out with
    | .ok bs => { attempts := attempts + 1, lastf, events, result := .bytes bs, rest }
    | .fault k =>
      if attempts + 1 ≤ maxRetries then
        execLoop addr maxRetries retryDelay w n (attempts + 1) (some k) (events ++ [.wait retryDelay]) rest
      else { attempts := attempts + 1, lastf := some k, events, result := .error (.bus k), rest }

/-- EXEC, R140. -/
def execTransaction (addr : Bits7) (maxRetries retryDelay : Nat) (w : List Int) (n : Int)
    (outs : List BusOutcome) : ExecRun :=
  match checkTransfer w n with
  | .error e => { attempts := 0, lastf := none, events := [], result := .error e, rest := outs }
  | .ok (bs, k) =>
    if bs = [] ∧ k = 0 then { attempts := 0, lastf := none, events := [], result := .bytes [], rest := outs }
    else execLoop addr maxRetries retryDelay bs k 0 none [] outs

end Sys2Proof.Machine
end

