-- ==== Sys2Proof/Machine/Realisation.lean ====
section
/-! DEFINITION. The OPEN parameters of R6 that no state of the model holds, as arguments: what a hardware realisation of
the request port carries (R89, D4: integer fields of `ARG_W` bits; R27, D30: a write buffer of `WBUF_MAX` bytes), and
how long a wait lasts (R216: `TICK`). Log 20. -/

namespace Sys2Proof.Machine

/-- The OPEN parameters of R6 beside the instance constants and the field codes, bound where a realisation is (I9, I10,
I16). `tick` is the length of one `TICK` in whatever unit of time the realisation counts. -/
structure RealParams where
  argW : Nat
  wbufMax : Nat
  tick : Nat
  deriving DecidableEq, Repr

/-- R6: `WBUF_MAX` is "at least 1"; and a two's complement field (R89) has at least its sign bit. -/
def RealParams.wf (r : RealParams) : Bool := decide (1 ≤ r.wbufMax) && decide (1 ≤ r.argW)

/-- R89: "each as a two's complement field of `ARG_W` bits". -/
def argField (argW : Nat) (x : Int) : BitVec argW := BitVec.ofInt argW x

/-- The integers a two's complement field of `argW` bits carries. -/
def carries (argW : Nat) (x : Int) : Bool :=
  decide (-2 ^ (argW - 1) ≤ x) && decide (x < 2 ^ (argW - 1))

/-- A request as a realisation's port holds it. -/
structure RealWord (argW : Nat) where
  op : BitVec 3
  ref : BitVec 3
  clk : BitVec 1
  pol : BitVec 1
  rst : BitVec 1
  mode : BitVec 1
  arg0 : BitVec argW
  arg1 : BitVec argW
  wlist : List (BitVec argW)
  deriving DecidableEq, Repr

/-- The request the fields stand for. -/
def RealWord.toPort {argW : Nat} (r : RealWord argW) : PortWord where
  op := r.op
  ref := r.ref
  clk := r.clk
  pol := r.pol
  rst := r.rst
  mode := r.mode
  arg0 := r.arg0.toInt
  arg1 := r.arg1.toInt
  wlist := r.wlist.map BitVec.toInt

/-- A request narrowed to a realisation's fields. -/
def toRealWord (argW : Nat) (p : PortWord) : RealWord argW where
  op := p.op
  ref := p.ref
  clk := p.clk
  pol := p.pol
  rst := p.rst
  mode := p.mode
  arg0 := argField argW p.arg0
  arg1 := argField argW p.arg1
  wlist := p.wlist.map (argField argW)

/-- Whether a realisation can be presented with the request at all (R89). -/
def realisationCarries (argW : Nat) (p : PortWord) : Bool :=
  carries argW p.arg0 && carries argW p.arg1 && p.wlist.all (carries argW)

/-- R160, R162, R165, R168, R171: how many bytes each attempt of a request writes. -/
def Request.writeLength : Request → Nat
  | .setup _ _ _ _ => 1
  | .readSingle _ _ => 1
  | .readRange _ _ _ => 1
  | .readMultiple _ _ _ => 1
  | .xfer w _ => w.length

/-- R27, I16: "a realisation refuses an XFER whose write list is longer". The other requests write one byte, which every
`WBUF_MAX` of R6 holds. -/
def realisationTakes (r : RealParams) (q : Request) : Bool := decide (q.writeLength ≤ r.wbufMax)

/-- R135, R216: how long an event waits: "`Delay(t)` waits `t` `TICK`s". The duration of an attempt is not the codec's
(R144), and no other event waits. -/
def Event.waited (tick : Nat) : Event → Nat
  | .accept _ _ => 0
  | .attempt _ _ _ _ => 0
  | .wait t => t * tick
  | .respond _ => 0

/-- The waiting recorded in a list of events. -/
def waitingTime (tick : Nat) (events : List Event) : Nat := (events.map (Event.waited tick)).sum

end Sys2Proof.Machine
end

