-- ==== Sys2Proof/Machine/Flags.lean ====
section
/-! DEFINITION. The status outputs: the codes of R204 and R205, the packed STATUS byte of R31, and what a caller can
read (R38). The codec has no condition-code flags (R20). -/

namespace Sys2Proof.Machine

/-- R204: `STATUS[1:0]`. -/
def ErrorKind.code : ErrorKind → BitVec 2
  | .ok => 0
  | .range => 1
  | .bus => 2
  | .protocol => 3

/-- R204: `STATUS[3:2]`. -/
def busfCode : Option BusFaultKind → BitVec 2
  | none => 0
  | some .nack => 1
  | some .arbLost => 2
  | some .timeout => 3

/-- R205: `STATUS[7:4]`. -/
def Cause.code : Cause → BitVec 4
  | .noCause => 0
  | .chRange => 1
  | .endRange => 2
  | .startGtEnd => 3
  | .countLow => 4
  | .countOver => 5
  | .byteDomain => 6
  | .negLength => 7
  | .lenMismatch => 8

/-- R31: the packed view of a response. -/
def Response.status (r : Response) : Byte := r.cause.code ++ busfCode r.busf ++ r.kind.code

/-- R31: `STATUS`, which reads 0x00 while no response is held. -/
def State.status (s : State) : Byte :=
  match s.rsp with
  | none => 0x00
  | some r => r.status

/-- R24: `BUSY`. -/
def State.busy (s : State) : Bool := decide (s.phase ≠ .idle)

/-- R29: `RSP_VALID`. -/
def State.rspValid (s : State) : Bool := s.rsp.isSome

/-- What a caller can read (R21, R22, R31, R38). -/
structure CallerView where
  addr : Bits7
  maxRetries : Nat
  retryDelay : Nat
  busy : Bool
  rspValid : Bool
  status : Byte
  attempts : Option Nat
  payload : Option Payload
  deriving DecidableEq, Repr

/-- R38, column "caller access": `HIST`, `DEV_SETUP` and the working registers are not in it. -/
def State.callerView (s : State) : CallerView where
  addr := s.addr
  maxRetries := s.maxRetries
  retryDelay := s.retryDelay
  busy := s.busy
  rspValid := s.rspValid
  status := s.status
  attempts := s.rsp.map Response.attempts
  payload := s.rsp.map Response.payload

end Sys2Proof.Machine
end

