-- ==== Sys2Proof/Safety.lean ====
section
/-! DEFINITION. What the statements about whole runs are made of: the legal responses, the grammar of HIST, and the
invariant that every step keeps. -/

namespace Sys2Proof.Machine

/-! ## Responses -/

/-- R29, R206: the combinations of fields a response can have, for a codec with `maxRetries` retries. -/
def Response.legal (maxRetries : Nat) (r : Response) : Bool :=
  match r.kind with
  | .ok => decide (r.cause = .noCause) && decide (r.busf = none) && decide (r.attempts ≤ maxRetries + 1)
  | .range =>
    decide (r.cause ∈ [Cause.chRange, .endRange, .startGtEnd, .countLow, .countOver, .byteDomain, .negLength])
      && decide (r.busf = none) && decide (r.attempts = 0) && decide (r.payload = .empty)
  | .bus =>
    decide (r.cause = .noCause) && r.busf.isSome && decide (r.attempts = maxRetries + 1)
      && decide (r.payload = .empty)
  | .protocol =>
    decide (r.cause = .lenMismatch) && decide (r.busf = none) && decide (1 ≤ r.attempts)
      && decide (r.attempts ≤ maxRetries + 1) && decide (r.payload = .empty)

/-! ## The grammar of HIST -/

/-- Where a history stands: between operations, with a response due, with an attempt due, or with a wait due. -/
inductive TracePos
  | idle
  | due (r : Response)
  | ready (req : Request) (attempts : Nat)
  | waiting (req : Request) (attempts : Nat)
  deriving DecidableEq, Repr

/-- R136: after `Accept`. -/
def traceAfterAccept (c : Codes) (req : Request) : Option TracePos :=
  match prepare c req with
  | .error e => some (.due (errorResponse e 0))
  | .ok pr =>
    if pr.wbuf = [] ∧ pr.rlen = 0 then
      match finish req pr.plan [] with
      | .error _ => none
      | .ok k => some (.due (k.response 0))
    else some (.ready req 0)

/-- R134, R137-R139: after the attempt numbered `n`. -/
def traceAfterAttempt (maxRetries : Nat) (req : Request) (plan : Option ScanPlan) (n : Nat) :
    BusOutcome → Option TracePos
  | .ok bytes =>
    match finish req plan bytes with
    | .error _ => none
    | .ok k => some (.due (k.response n))
  | .fault k => if n ≤ maxRetries then some (.waiting req n) else some (.due (errorResponse (.bus k) n))

/-- The events each position allows (R32, R61, R134, R135, R142): every attempt of an operation carries `ADDR` and
what `Prepare` gave, and nothing but that operation's events stand between its `Accept` and its `Respond`. -/
def traceNext (addr : Bits7) (maxRetries retryDelay : Nat) (c : Codes) : Option TracePos → Event → Option TracePos
  | some .idle, .accept op req => if op = req.op then traceAfterAccept c req else none
  | some (.due r), .respond r' => if r = r' then some .idle else none
  | some (.ready req k), .attempt a w n out =>
    match prepare c req with
    | .error _ => none
    | .ok pr =>
      if a = addr ∧ w = pr.wbuf ∧ n = pr.rlen ∧ out.admitted n = out then
        traceAfterAttempt maxRetries req pr.plan (k + 1) out
      else none
  | some (.waiting req k), .wait t => if t = retryDelay then some (.ready req k) else none
  | _, _ => none

/-- Where `HIST` stands. -/
def State.tracePos (s : State) : Option TracePos :=
  s.hist.foldl (traceNext s.addr s.maxRetries s.retryDelay s.codes) (some .idle)

/-- Where the sequencer says it stands. -/
def State.position (s : State) : TracePos :=
  match s.phase with
  | .idle => .idle
  | .attempt => .ready s.req s.attempts
  | .backoff => .waiting s.req s.attempts

/-- The response the last event of a history gave. -/
def lastResponse (h : List Event) : Option Response :=
  match h.getLast? with
  | some (.respond r) => some r
  | _ => none

/-! ## The invariant -/

/-- What every step keeps: the bus is free between steps (R55); `HIST` is a history of whole operations up to where
the sequencer stands (R32, R61); `RSP` is the last response (R29, R213) or none while an operation is in flight
(R136) and is a legal one (R206); and the working registers are those of the accepted request (R25-R28). -/
structure State.Inv (s : State) : Prop where
  claimClosed : s.claim = none
  trace : s.tracePos = some s.position
  rspIdle : s.phase = .idle → s.rsp = lastResponse s.hist
  rspBusy : s.phase ≠ .idle → s.rsp = none
  rspLegal : ∀ r, s.rsp = some r → r.legal s.maxRetries = true
  opMatches : s.phase ≠ .idle → s.op = s.req.op
  prepared : s.phase ≠ .idle → prepare s.codes s.req = .ok { plan := s.plan, wbuf := s.wbuf, rlen := s.rlen }
  somethingToSend : s.phase ≠ .idle → ¬(s.wbuf = [] ∧ s.rlen = 0)
  budget : s.phase ≠ .idle → s.attempts ≤ s.maxRetries
  backoffAttempted : s.phase = .backoff → 1 ≤ s.attempts
  lastfAttempted : s.phase ≠ .idle → (s.lastf = none ↔ s.attempts = 0)

/-- Neither a codec reset nor a device power cycle is asserted, and no claim is in progress, as holds between any two
steps of the sequencer (`claimClosed`; log 14, log 21). -/
def State.quiet (s : State) : Prop := s.resetReq = false ∧ s.deviceCycled = false ∧ s.claim = none

/-- A codec ready to take the request `item` at its next step (R136, R242). -/
def State.ready (s : State) (item : PortWord) (rest : List PortWord) : Prop :=
  s.quiet ∧ s.phase = .idle ∧ s.reqPort = item :: rest

/-- The instruction of a request. -/
def Request.instr : Request → Instr
  | .setup ref clk pol rst => .setup ref clk pol rst
  | .readSingle ch mode => .readSingle ch mode
  | .readRange start stop mode => .readRange start stop mode
  | .readMultiple start count mode => .readMultiple start count mode
  | .xfer w n => .xfer w n

/-- An accepted request that fails its checks with cause `c`: accepted and ended in one step (R136, R206, R213). -/
def State.rejected (q : Request) (c : Cause) (s : State) : State :=
  { s with
    phase := .idle, op := q.op, req := q, attempts := 0, lastf := none,
    rsp := some { kind := .range, cause := c, busf := none, attempts := 0, payload := .empty },
    hist := s.hist ++ [.accept q.op q,
      .respond { kind := .range, cause := c, busf := none, attempts := 0, payload := .empty }] }

/-- An accepted request that goes to the bus (R136). -/
def State.accepted (q : Request) (plan : Option ScanPlan) (w : List Byte) (n : Nat) (s : State) : State :=
  { s with
    phase := .attempt, op := q.op, req := q, plan := plan, wbuf := w, rlen := n, attempts := 0, lastf := none,
    rsp := none, hist := s.hist ++ [.accept q.op q] }

/-- Instructions run one after another. -/
def runInstrs : List Instr → State → Host.Outcome State Fault Refusal
  | [], s => .next s
  | i :: rest, s =>
    match exec i s with
    | .next t => runInstrs rest t
    | .fault f => .fault f
    | .refused r => .refused r

/-- The result words of a read, as instructions (R56, R85). -/
def resultInstrs : List Byte → List Instr
  | hi :: lo :: rest => .resultWord (hi.extractLsb' 4 4) (hi.extractLsb' 0 4) lo :: resultInstrs rest
  | _ => []

/-- What erases the state the codec never reads (R32, R33): the history, the device's register and its draws. -/
def State.erase (s : State) : State := { s with hist := [], devSetup := none, draws := 0 }

end Sys2Proof.Machine
end

