-- ==== Sys2Proof/Certificates/Slice0/Obligations.lean ====
section
/-! DEFINITION. The statements for the provers. -/

open Sys2Proof Sys2Proof.Machine

/-! ## Encodings -/

/-- 30_encoding.md: decoding what is encoded gives the instruction back, whatever the field codes. -/
def Obligations.DecodeEncodeAllInstructions : Prop :=
  ∀ (c : Codes) (i : Instr), c.wf = true → i.wf = true → decodeItem c (encodeItem c i) = .ok i

/-- R72, R73, R78, R85: every byte is one command and every byte pair one result word, and no bit of them is lost. -/
def Obligations.EncodeDecodeWireFormats : Prop :=
  (∀ (c : Codes) (b : Byte), c.wf = true → encodeItem c (decodeCommand c b) = .command b) ∧
  (∀ (c : Codes) (hi lo : Byte), ∃ i, decodeItem c (.word hi lo) = .ok i ∧ encodeItem c i = .word hi lo)

/-- R72: bit 7 alone tells the two command formats apart. -/
def Obligations.BitSevenTellsTheFormat : Prop :=
  ∀ (c : Codes) (b : Byte),
    (b.getLsbD 7 = true ↔
      ∃ ref clk pol rst unused, decodeCommand c b = .setupByte ref clk pol rst unused) ∧
    (b.getLsbD 7 = false ↔
      ∃ cs mode, decodeCommand c b = .configBank0 cs mode ∨ decodeCommand c b = .configScanX cs mode ∨
        decodeCommand c b = .configBank6 cs mode ∨ decodeCommand c b = .configOnly cs mode)

/-- 95_test_vectors.md sections 2.1, 2.2 and 3.1, under the default field codes (PRESUMED, log 2). -/
def Obligations.WrittenOutWordsDecode : Prop :=
  decodeItem Codes.standard (.command 0b10000010) = .ok (.setupByte 0 0 0 1 0) ∧
  decodeItem Codes.standard (.command 0b11010110) = .ok (.setupByte 0b101 0 1 1 0) ∧
  decodeItem Codes.standard (.command 0b00001111) = .ok (.configBank0 7 1) ∧
  decodeItem Codes.standard (.command 0b00101011) = .ok (.configScanX 5 1) ∧
  decodeItem Codes.standard (.command 0b01010011) = .ok (.configBank6 9 1) ∧
  decodeItem Codes.standard (.command 0b01110110) = .ok (.configOnly 11 0) ∧
  decodeItem Codes.standard (.word 0b11110001 0b00100011) = .ok (.resultWord 0b1111 0b0001 0b00100011) ∧
  decodeItem Codes.standard (.request { PortWord.blank 0b010 with arg0 := 3, arg1 := 7, mode := 1 }) =
    .ok (.readRange 3 7 .singleEnded)

/-- The first item of R91 and R90's last sentence: what is reserved is refused, and nothing else happens. -/
def Obligations.ReservedRequestsRefused : Prop :=
  (∀ (s : State) (p : PortWord) (rest : List PortWord), s.ready p rest →
    (5 ≤ p.op.toNat → step s = .refused (.reservedOp p.op)) ∧
    (p.op = 0 → 6 ≤ p.ref.toNat → step s = .refused (.reservedRef p.ref))) ∧
  (∀ (op : BitVec 3) (s : State), exec (.reservedOp op) s = .refused (.reservedOp op))

/-- R89, D4: a realisation of `ARG_W` bits carries every integer of its two's complement range, and presents exactly
the request whose integers lie in it (the record of fields is log 7's, the width an argument, log 20). -/
def Obligations.RealisationPresentsWhatItCarries : Prop :=
  ∀ (argW : Nat) (p : PortWord), 1 ≤ argW →
    (-(2 : Int) ^ (argW - 1) ≤ p.arg0 ∧ p.arg0 < (2 : Int) ^ (argW - 1)) →
    (-(2 : Int) ^ (argW - 1) ≤ p.arg1 ∧ p.arg1 < (2 : Int) ^ (argW - 1)) →
    (∀ x ∈ p.wlist, -(2 : Int) ^ (argW - 1) ≤ x ∧ x < (2 : Int) ^ (argW - 1)) →
    realisationCarries argW p = true ∧ (toRealWord argW p).toPort = p

/-! ## Encoders -/

/-- R100. -/
def Obligations.EncSetupFormula : Prop :=
  (∀ (c : Codes) (ref : RefSel) (clk : Clock) (pol : Polarity) (rst : ResetSel),
    encSetup c ref clk pol rst = 1#1 ++ c.refCode ref ++ c.clkCode clk ++ c.polCode pol ++ c.rstCode rst ++ 0#1 ∧
    (encSetup c ref clk pol rst).toNat =
      0x80 ||| ((c.refCode ref).toNat <<< 4) ||| ((c.clkCode clk).toNat <<< 3) ||| ((c.polCode pol).toNat <<< 2)
        ||| ((c.rstCode rst).toNat <<< 1)) ∧
  encSetup Codes.standard .ref0 .internal .unipolar .noAction = 0x82

/-- R102. -/
def Obligations.EncSetupInjective : Prop :=
  ∀ (c : Codes), c.wf = true →
    ∀ (ref ref' : RefSel) (clk clk' : Clock) (pol pol' : Polarity) (rst rst' : ResetSel),
      encSetup c ref clk pol rst = encSetup c ref' clk' pol' rst' →
        ref = ref' ∧ clk = clk' ∧ pol = pol' ∧ rst = rst'

/-- R103. -/
def Obligations.EncSetupRange : Prop :=
  (∀ (c : Codes) (ref : RefSel) (clk : Clock) (pol : Polarity) (rst : ResetSel),
    (encSetup c ref clk pol rst).getLsbD 7 = true ∧ (encSetup c ref clk pol rst).getLsbD 0 = false ∧
    0x80 ≤ (encSetup c ref clk pol rst).toNat ∧ (encSetup c ref clk pol rst).toNat ≤ 0xFE ∧
    (encSetup c ref clk pol rst).toNat % 2 = 0 ∧ isSetupByte (encSetup c ref clk pol rst) = true) ∧
  (∀ v : Nat,
    (∃ ref clk pol rst, (encSetup Codes.standard ref clk pol rst).toNat = v) ↔
      ∃ r ∈ [0, 2, 4, 5, 6, 7], ∃ k ∈ [0, 1], ∃ p ∈ [0, 1], ∃ t ∈ [0, 1],
        v = 0x80 ||| (r <<< 4) ||| (k <<< 3) ||| (p <<< 2) ||| (t <<< 1))

/-- R110, R111. -/
def Obligations.EncConfigFormula : Prop :=
  (∀ (c : Codes) (scan : ScanMode) (ch : Int) (mode : InputMode),
    ((ch < 0 ∨ 11 < ch) → encConfig c scan ch mode = .error (.range .chRange)) ∧
    (0 ≤ ch → ch ≤ 11 →
      ∃ b, encConfig c scan ch mode = .ok b ∧
        b = 0#1 ++ c.scanCode scan ++ BitVec.ofInt 4 ch ++ c.modeCode mode ∧
        b.toNat = ((c.scanCode scan).toNat <<< 5) ||| (ch.toNat <<< 1) ||| (c.modeCode mode).toNat)) ∧
  encConfig Codes.standard .bank6 9 .singleEnded = .ok 0x53

/-- R113, R114. -/
def Obligations.EncConfigInjective : Prop :=
  (∀ (c : Codes), c.wf = true →
    ∀ (scan scan' : ScanMode) (ch ch' : Int) (mode mode' : InputMode) (b : Byte),
      encConfig c scan ch mode = .ok b → encConfig c scan' ch' mode' = .ok b →
        scan = scan' ∧ ch = ch' ∧ mode = mode') ∧
  (∀ (c : Codes) (scan : ScanMode) (ch : Int) (mode : InputMode) (b : Byte),
    encConfig c scan ch mode = .ok b →
      b.getLsbD 7 = false ∧ (b.extractLsb' 1 4).toNat ≤ 11 ∧ b.toNat ≤ 0x7F ∧ isSetupByte b = false) ∧
  (∀ v : Nat,
    (∃ scan ch mode b, encConfig Codes.standard scan ch mode = .ok b ∧ b.toNat = v) ↔
      ∃ t < 4, ∃ k < 12, ∃ m < 2, v = (t <<< 5) ||| (k <<< 1) ||| m)

/-! ## Planner -/

/-- R120, with the word counts of R121. -/
def Obligations.PlanBankValues : Prop :=
  ∀ (start stop : Int),
    ((start < 0 ∨ 11 < start) → planBank start stop = .error (.range .chRange)) ∧
    (0 ≤ start → start ≤ 11 → (stop < 0 ∨ 11 < stop) → planBank start stop = .error (.range .endRange)) ∧
    (0 ≤ start → start ≤ 11 → 0 ≤ stop → stop ≤ 11 → stop < start →
      planBank start stop = .error (.range .startGtEnd)) ∧
    (0 ≤ start → start < 6 → start ≤ stop → stop ≤ 11 →
      ∃ wc : Nat, planBank start stop = .ok { scanMode := .bank0, baseChannel := 0, endChannel := stop.toNat, wordCount := wc } ∧
        (wc : Int) = stop + 1 ∧ 1 ≤ wc ∧ wc ≤ 12) ∧
    (6 ≤ start → start ≤ stop → stop ≤ 11 →
      ∃ wc : Nat, planBank start stop = .ok { scanMode := .bank6, baseChannel := 6, endChannel := stop.toNat, wordCount := wc } ∧
        (wc : Int) = stop - 5 ∧ 1 ≤ wc ∧ wc ≤ 6)

/-- R123, R124. -/
def Obligations.PlanInvariants : Prop :=
  (∀ (start stop : Int) (p : ScanPlan), planBank start stop = .ok p →
    (p.baseChannel = 0 ∨ p.baseChannel = 6) ∧ (p.baseChannel : Int) ≤ start ∧ start - p.baseChannel ≤ 5 ∧
    (p.endChannel : Int) = stop ∧ p.endChannel ≤ 11 ∧ p.baseChannel ≤ p.endChannel ∧
    (p.wordCount : Int) = p.endChannel - p.baseChannel + 1 ∧ (p.scanMode = .bank0 ∨ p.scanMode = .bank6)) ∧
  (∀ (ch : Int) (p : ScanPlan), planSingle ch = .ok p →
    (p.baseChannel : Int) = ch ∧ (p.endChannel : Int) = ch ∧ 0 ≤ ch ∧ ch ≤ 11 ∧ p.wordCount = 1 ∧
    (p.wordCount : Int) = p.endChannel - p.baseChannel + 1 ∧ p.scanMode = .only)

/-- R122, R126. -/
def Obligations.PlanSingleAndCountValues : Prop :=
  (∀ ch : Int,
    ((ch < 0 ∨ 11 < ch) → planSingle ch = .error (.range .chRange)) ∧
    (0 ≤ ch → ch ≤ 11 →
      planSingle ch = .ok { scanMode := .only, baseChannel := ch.toNat, endChannel := ch.toNat, wordCount := 1 })) ∧
  (∀ (start count : Int),
    ((start < 0 ∨ 11 < start) → planCount start count = .error (.range .chRange)) ∧
    (0 ≤ start → start ≤ 11 → count < 1 → planCount start count = .error (.range .countLow)) ∧
    (0 ≤ start → start ≤ 11 → 1 ≤ count → 11 < start + count - 1 →
      planCount start count = .error (.range .countOver)) ∧
    (0 ≤ start → 1 ≤ count → start + count - 1 ≤ 11 →
      planCount start count = planBank start (start + count - 1) ∧ ∃ p, planCount start count = .ok p))

/-! ## Result decoder -/

/-- R150, R156. -/
def Obligations.UnpackFormula : Prop :=
  (∀ hi lo : Byte,
    (unpack hi lo).toNat = ((hi.toNat &&& 0x0F) <<< 8) ||| lo.toNat ∧
    unpack hi lo = hi.extractLsb' 0 4 ++ lo ∧
    (unpack hi lo).toNat = ((hi.toNat <<< 8) &&& 0x0F00) ||| lo.toNat) ∧
  (∃ hi lo : Byte, (unpack hi lo).toNat ≠ ((hi.toNat &&& 0x0F) <<< 15) ||| lo.toNat)

/-- R155. -/
def Obligations.SampleRoundTrip : Prop :=
  ∀ (v : Sample) (pad : BitVec 4),
    unpack (packWord v pad).1 (packWord v pad).2 = v ∧
    (packWord v pad).1.toNat = (pad.toNat <<< 4) ||| (v.toNat >>> 8) ∧ (packWord v pad).2.toNat = v.toNat &&& 0xFF

/-- R152 and R154, with R151's and R153's words for the plans and windows the operations pass. -/
def Obligations.DecodeIsExact : Prop :=
  (∀ (raw : List Byte) (p : ScanPlan) (start count : Nat), raw.length ≠ 2 * p.wordCount →
    decodeResult raw p start count = .error (.protocol .lenMismatch)) ∧
  (∀ (raw : List Byte) (p : ScanPlan) (start count : Nat),
    raw.length = 2 * p.wordCount → p.baseChannel ≤ start → start - p.baseChannel + count = p.wordCount →
    ∃ ss, decodeResult raw p start count = .ok ss ∧ ss.length = count ∧
      ∀ j, j < count →
        ss[j]? = some (unpack (raw.getD (2 * (start + j - p.baseChannel)) 0)
          (raw.getD (2 * (start + j - p.baseChannel) + 1) 0))) ∧
  (∀ (start stop : Int) (p : ScanPlan), planBank start stop = .ok p →
    p.baseChannel ≤ start.toNat ∧ start.toNat - p.baseChannel + (stop - start + 1).toNat = p.wordCount) ∧
  (∀ (start count : Int) (p : ScanPlan), planCount start count = .ok p →
    p.baseChannel ≤ start.toNat ∧ start.toNat - p.baseChannel + count.toNat = p.wordCount) ∧
  (∀ (ch : Int) (p : ScanPlan), planSingle ch = .ok p →
    p.baseChannel ≤ ch.toNat ∧ ch.toNat - p.baseChannel + 1 = p.wordCount)

/-! ## Status -/

/-- R204's codes where R31 packs them, with the numbers of R205. -/
def Obligations.StatusPacking : Prop :=
  (∀ s : State, s.rsp = none → s.status = 0x00 ∧ s.rspValid = false) ∧
  (∀ (s : State) (r : Response), s.rsp = some r →
    s.rspValid = true ∧ s.status.extractLsb' 0 2 = r.kind.code ∧ s.status.extractLsb' 2 2 = busfCode r.busf ∧
    s.status.extractLsb' 4 4 = r.cause.code) ∧
  ([ErrorKind.ok, .range, .bus, .protocol].map ErrorKind.code = [0, 1, 2, 3]) ∧
  ([none, some BusFaultKind.nack, some .arbLost, some .timeout].map busfCode = [0, 1, 2, 3]) ∧
  ([Cause.noCause, .chRange, .endRange, .startGtEnd, .countLow, .countOver, .byteDomain, .negLength,
    .lenMismatch].map Cause.code = [0, 1, 2, 3, 4, 5, 6, 7, 8])

/-- 95_test_vectors.md section 2.7: "No other `STATUS` value is ever produced." -/
def Obligations.OnlyListedStatusValues : Prop :=
  ∀ s : State, s.Inv →
    s.status ∈ ([0x00, 0x11, 0x21, 0x31, 0x41, 0x51, 0x61, 0x71, 0x06, 0x0A, 0x0E, 0x83] : List Byte)

/-! ## Acceptance -/

/-- R160, R136. -/
def Obligations.SetupAccepted : Prop :=
  ∀ (s : State) (ref : RefSel) (clk : Clock) (pol : Polarity) (rst : ResetSel), s.phase = .idle →
    exec (.setup ref clk pol rst) s =
      .next (s.accepted (.setup ref clk pol rst) none [encSetup s.codes ref clk pol rst] 0)

/-- R162, R165, R168, R136: a read whose channels are legal. -/
def Obligations.ReadsAccepted : Prop :=
  (∀ (s : State) (ch : Int) (mode : InputMode), s.phase = .idle → 0 ≤ ch → ch ≤ 11 →
    exec (.readSingle ch mode) s =
      .next (s.accepted (.readSingle ch mode)
        (some { scanMode := .only, baseChannel := ch.toNat, endChannel := ch.toNat, wordCount := 1 })
        [packConfig (s.codes.scanCode .only) (BitVec.ofInt 4 ch) (s.codes.modeCode mode)] 2)) ∧
  (∀ (s : State) (start stop : Int) (mode : InputMode), s.phase = .idle → 0 ≤ start → start ≤ stop → stop ≤ 11 →
    ∃ p, planBank start stop = .ok p ∧
      exec (.readRange start stop mode) s =
        .next (s.accepted (.readRange start stop mode) (some p)
          [packConfig (s.codes.scanCode p.scanMode) (BitVec.ofInt 4 stop) (s.codes.modeCode mode)]
          (2 * p.wordCount))) ∧
  (∀ (s : State) (start count : Int) (mode : InputMode), s.phase = .idle → 0 ≤ start → 1 ≤ count →
    start + count - 1 ≤ 11 →
    ∃ p, planCount start count = .ok p ∧
      exec (.readMultiple start count mode) s =
        .next (s.accepted (.readMultiple start count mode) (some p)
          [packConfig (s.codes.scanCode p.scanMode) (BitVec.ofInt 4 (start + count - 1)) (s.codes.modeCode mode)]
          (2 * p.wordCount)))

/-- R171, R136, R132: an XFER whose bytes and length are legal; with nothing to write and nothing to read it ends at
once, without the bus (that OP, REQ, PLAN, WBUF, RLEN and LASTF hold a value in IDLE then is the model's choice, log 4). -/
def Obligations.XferAccepted : Prop :=
  (∀ (s : State) (w : List Int) (n : Int), s.phase = .idle → (∀ x ∈ w, 0 ≤ x ∧ x ≤ 255) → 0 ≤ n →
    (w ≠ [] ∨ n ≠ 0) →
    exec (.xfer w n) s = .next (s.accepted (.xfer w n) none (w.map (BitVec.ofInt 8)) n.toNat)) ∧
  (∀ s : State, s.phase = .idle →
    exec (.xfer [] 0) s =
      .next { s.accepted (.xfer [] 0) none [] 0 with
        phase := .idle
        rsp := some { kind := .ok, cause := .noCause, busf := none, attempts := 0, payload := .empty }
        hist := s.hist ++ [.accept .xfer (.xfer [] 0),
          .respond { kind := .ok, cause := .noCause, busf := none, attempts := 0, payload := .empty }] })

/-- R200, R206, R210, R131: the first failing check ends the operation in the accept step, with no attempt (that OP, REQ
and LASTF hold what the accept step wrote and PLAN, WBUF and RLEN what they held before, where R213 says they hold no
value, is the model's choice, log 4). -/
def Obligations.RangeErrorsEndAtAccept : Prop :=
  (∀ (s : State) (ch : Int) (mode : InputMode), s.phase = .idle → (ch < 0 ∨ 11 < ch) →
    exec (.readSingle ch mode) s = .next (s.rejected (.readSingle ch mode) .chRange)) ∧
  (∀ (s : State) (start stop : Int) (mode : InputMode), s.phase = .idle →
    ((start < 0 ∨ 11 < start) →
      exec (.readRange start stop mode) s = .next (s.rejected (.readRange start stop mode) .chRange)) ∧
    (0 ≤ start → start ≤ 11 → (stop < 0 ∨ 11 < stop) →
      exec (.readRange start stop mode) s = .next (s.rejected (.readRange start stop mode) .endRange)) ∧
    (start ≤ 11 → 0 ≤ stop → stop < start →
      exec (.readRange start stop mode) s = .next (s.rejected (.readRange start stop mode) .startGtEnd))) ∧
  (∀ (s : State) (start count : Int) (mode : InputMode), s.phase = .idle →
    ((start < 0 ∨ 11 < start) →
      exec (.readMultiple start count mode) s = .next (s.rejected (.readMultiple start count mode) .chRange)) ∧
    (0 ≤ start → start ≤ 11 → count < 1 →
      exec (.readMultiple start count mode) s = .next (s.rejected (.readMultiple start count mode) .countLow)) ∧
    (0 ≤ start → start ≤ 11 → 1 ≤ count → 11 < start + count - 1 →
      exec (.readMultiple start count mode) s = .next (s.rejected (.readMultiple start count mode) .countOver))) ∧
  (∀ (s : State) (w : List Int) (n : Int), s.phase = .idle →
    ((∃ x ∈ w, x < 0 ∨ 255 < x) → exec (.xfer w n) s = .next (s.rejected (.xfer w n) .byteDomain)) ∧
    ((∀ x ∈ w, 0 ≤ x ∧ x ≤ 255) → n < 0 → exec (.xfer w n) s = .next (s.rejected (.xfer w n) .negLength)))

/-- R219, R143: while an operation is in flight no request is accepted, none is lost, and none changes what happens.
That presented items wait in `reqPort` is the model's choice (log 6), and so is what `exec` of a request answers in a
busy state, which no step reaches (log 19). -/
def Obligations.BusyHoldsRequests : Prop :=
  ∀ s : State, s.quiet → s.phase ≠ .idle →
    (∀ t, step s = .next t → t.reqPort = s.reqPort) ∧
    (∀ (port : List PortWord) (t : State), step s = .next t →
      step { s with reqPort := port } = .next { t with reqPort := port }) ∧
    (∀ q : Request, exec q.instr s = .next s)

/-- 45_operations.md "State written": accepting a request writes the codec's registers and nothing else; one that is
rejected leaves PLAN, WBUF and RLEN (that they hold a value then is the model's choice, log 4). -/
def Obligations.RequestFrame : Prop :=
  ∀ (s t : State) (q : Request), exec q.instr s = .next t →
    t.addr = s.addr ∧ t.maxRetries = s.maxRetries ∧ t.retryDelay = s.retryDelay ∧ t.codes = s.codes ∧
    t.devSetup = s.devSetup ∧ t.claim = s.claim ∧ t.reqPort = s.reqPort ∧ t.busPort = s.busPort ∧
    t.resetReq = s.resetReq ∧ t.deviceCycled = s.deviceCycled ∧ t.draws = s.draws ∧
    (∃ more, t.hist = s.hist ++ more) ∧
    (∀ e, prepare s.codes q = .error e → t.plan = s.plan ∧ t.wbuf = s.wbuf ∧ t.rlen = s.rlen)

/-! ## Attempts -/

/-- R134, R137, R221: a faulted attempt with a retry left. The outcome comes from `busPort` (log 8), and which candidate
DEV_SETUP takes is free (log 10). -/
def Obligations.FaultWithRetryLeftBacksOff : Prop :=
  ∀ (s : State) (k : BusFaultKind) (more : List BusOutcome), s.quiet → s.phase = .attempt →
    s.busPort = .fault k :: more → s.attempts + 1 ≤ s.maxRetries →
    ∃ d n, step s =
        .next { s with
          phase := .backoff, attempts := s.attempts + 1, lastf := some k, busPort := more, devSetup := d, draws := n,
          hist := s.hist ++ [.attempt s.addr s.wbuf s.rlen (.fault k)] } ∧
      d ∈ setupCandidates s.devSetup s.wbuf ∧
      ((∀ b ∈ s.wbuf, isSetupByte b = false) → d = s.devSetup)

/-- R139: the attempt numbered `MAX_RETRIES + 1` faults; with R137's LASTF and R221's candidates. The outcome comes from
`busPort` (log 8), which candidate DEV_SETUP takes is free (log 10), and that the working registers keep their values in
IDLE is the model's choice (log 4). -/
def Obligations.LastFaultSurfaces : Prop :=
  ∀ (s : State) (k : BusFaultKind) (more : List BusOutcome), s.quiet → s.phase = .attempt →
    s.busPort = .fault k :: more → s.attempts = s.maxRetries →
    ∃ t, step s = .next t ∧ t.phase = .idle ∧
      t.rsp = some { kind := .bus, cause := .noCause, busf := some k, attempts := s.maxRetries + 1, payload := .empty } ∧
      t.lastf = some k ∧ t.attempts = s.maxRetries + 1 ∧ t.busPort = more ∧
      t.hist = s.hist ++ [.attempt s.addr s.wbuf s.rlen (.fault k),
        .respond { kind := .bus, cause := .noCause, busf := some k, attempts := s.maxRetries + 1, payload := .empty }] ∧
      t.devSetup ∈ setupCandidates s.devSetup s.wbuf

/-- R135's BACKOFF step. -/
def Obligations.BackoffWaitsThenRetries : Prop :=
  ∀ s : State, s.quiet → s.phase = .backoff →
    step s = .next { s with hist := s.hist ++ [.wait s.retryDelay], phase := .attempt }

/-- R252, I13: an attempt the bus has not answered holds the codec in ATTEMPT (the step's form is log 8's). -/
def Obligations.UnansweredAttemptHolds : Prop :=
  ∀ s : State, s.quiet → s.phase = .attempt → s.busPort = [] → step s = .next s

/-- R137, R138, R57: an Ok outcome ends the operation, delivers every written byte and frees the bus. The outcome comes
from `busPort` (log 8), empty where nothing is read (log 9); the delivery does not wait for the decoding (log 28); and
that OP, REQ, PLAN, WBUF, RLEN and LASTF keep their value in IDLE is the model's choice (log 4). -/
def Obligations.OkOutcomeCompletes : Prop :=
  ∀ (s : State) (bytes got : List Byte) (more : List BusOutcome) (c : Completion), s.quiet → s.phase = .attempt →
    s.busPort = .ok bytes :: more → got = (if s.rlen = 0 then [] else bytes) → finish s.req s.plan got = .ok c →
    step s =
      .next { s with
        phase := .idle, attempts := s.attempts + 1, busPort := more, claim := none,
        devSetup := lastSetup s.devSetup s.wbuf, rsp := some (c.response (s.attempts + 1)),
        hist := s.hist ++ [.attempt s.addr s.wbuf s.rlen (.ok got), .respond (c.response (s.attempts + 1))] }

/-! ## Whole operations with an answering bus -/

/-- R160, R161's first sentence. The outcome comes from `busPort` (log 8), here and below. -/
def Obligations.SetupResult : Prop :=
  ∀ (s : State) (item : PortWord) (rest : List PortWord) (bytes : List Byte) (more : List BusOutcome)
    (ref : RefSel) (clk : Clock) (pol : Polarity) (rst : ResetSel),
    s.ready item rest → decodeRequest s.codes item = .ok (.setup ref clk pol rst) → s.busPort = .ok bytes :: more →
    ∃ t, Sys2Proof.core.run 2 s = .next t ∧ t.phase = .idle ∧
      t.rsp = some { kind := .ok, cause := .noCause, busf := none, attempts := 1, payload := .empty } ∧
      t.devSetup = some (encSetup s.codes ref clk pol rst) ∧ t.reqPort = rest ∧ t.busPort = more

/-- R162. -/
def Obligations.ReadSingleResult : Prop :=
  ∀ (s : State) (item : PortWord) (rest : List PortWord) (hi lo : Byte) (more : List BusOutcome) (ch : Int)
    (mode : InputMode),
    s.ready item rest → decodeRequest s.codes item = .ok (.readSingle ch mode) → 0 ≤ ch → ch ≤ 11 →
    s.busPort = .ok [hi, lo] :: more →
    ∃ t, Sys2Proof.core.run 2 s = .next t ∧ t.phase = .idle ∧
      t.rsp = some { kind := .ok, cause := .noCause, busf := none, attempts := 1, payload := .sample (unpack hi lo) } ∧
      t.devSetup = s.devSetup

/-- R165, R166: the channels `start..end`, each once, ascending, each with the sample of its own word. -/
def Obligations.ReadRangeResult : Prop :=
  ∀ (s : State) (item : PortWord) (rest : List PortWord) (bytes : List Byte) (more : List BusOutcome)
    (start stop : Int) (mode : InputMode) (p : ScanPlan),
    s.ready item rest → decodeRequest s.codes item = .ok (.readRange start stop mode) →
    planBank start stop = .ok p → bytes.length = 2 * p.wordCount → s.busPort = .ok bytes :: more →
    ∃ t ps, Sys2Proof.core.run 2 s = .next t ∧ t.phase = .idle ∧
      t.rsp = some { kind := .ok, cause := .noCause, busf := none, attempts := 1, payload := .map ps } ∧
      ps.map Prod.fst = List.range' start.toNat (stop - start + 1).toNat ∧
      (∀ pr ∈ ps, pr.2 = unpack (bytes.getD (2 * (pr.1 - p.baseChannel)) 0) (bytes.getD (2 * (pr.1 - p.baseChannel) + 1) 0)) ∧
      t.devSetup = s.devSetup

/-- R168, R169: exactly `count` samples, the one at index `j` being channel `start + j`'s; and the same samples, from
the same bytes sent, as READ_RANGE to `start + count - 1`. -/
def Obligations.ReadMultipleResult : Prop :=
  (∀ (s : State) (item : PortWord) (rest : List PortWord) (bytes : List Byte) (more : List BusOutcome)
    (start count : Int) (mode : InputMode) (p : ScanPlan),
    s.ready item rest → decodeRequest s.codes item = .ok (.readMultiple start count mode) →
    planCount start count = .ok p → bytes.length = 2 * p.wordCount → s.busPort = .ok bytes :: more →
    ∃ t ss, Sys2Proof.core.run 2 s = .next t ∧ t.phase = .idle ∧
      t.rsp = some { kind := .ok, cause := .noCause, busf := none, attempts := 1, payload := .seq ss } ∧
      ss.length = count.toNat ∧
      (∀ j, j < count.toNat →
        ss[j]? = some (unpack (bytes.getD (2 * (start.toNat + j - p.baseChannel)) 0)
          (bytes.getD (2 * (start.toNat + j - p.baseChannel) + 1) 0))) ∧
      t.devSetup = s.devSetup) ∧
  (∀ (c : Codes) (start count : Int) (mode : InputMode) (pr : Prepared) (bytes : List Byte) (ss : List Sample),
    prepare c (.readMultiple start count mode) = .ok pr →
    prepare c (.readRange start (start + count - 1) mode) = .ok pr ∧
    (finish (.readMultiple start count mode) pr.plan bytes = .ok (.payload (.seq ss)) →
      finish (.readRange start (start + count - 1) mode) pr.plan bytes =
        .ok (.payload (.map (ss.mapIdx fun j x => (start.toNat + j, x))))))

/-- R171: the bytes of the answer, or nothing for a write-only transfer. -/
def Obligations.XferResult : Prop :=
  ∀ (s : State) (item : PortWord) (rest : List PortWord) (bytes : List Byte) (more : List BusOutcome)
    (w : List Int) (n : Int),
    s.ready item rest → decodeRequest s.codes item = .ok (.xfer w n) → (∀ x ∈ w, 0 ≤ x ∧ x ≤ 255) → 0 ≤ n →
    (w ≠ [] ∨ n ≠ 0) → s.busPort = .ok bytes :: more → (n ≠ 0 → (bytes.length : Int) = n) →
    ∃ t, Sys2Proof.core.run 2 s = .next t ∧ t.phase = .idle ∧
      t.rsp = some (okResponse (if n = 0 then .empty else .bytes bytes) 1) ∧
      t.devSetup = lastSetup s.devSetup (w.map (BitVec.ofInt 8)) ∧
      t.hist = s.hist ++ [.accept .xfer (.xfer w n),
        .attempt s.addr (w.map (BitVec.ofInt 8)) n.toNat (.ok (if n = 0 then [] else bytes)),
        .respond (okResponse (if n = 0 then .empty else .bytes bytes) 1)]

/-- R138, R152, R202, R206: an answer of the wrong length is a ProtocolError at once, whatever retries are left. -/
def Obligations.WrongLengthIsProtocolError : Prop :=
  ∀ (s : State) (bytes : List Byte) (more : List BusOutcome), s.Inv → s.quiet → s.phase = .attempt →
    s.busPort = .ok bytes :: more → s.rlen ≠ 0 → bytes.length ≠ s.rlen →
    ∃ t, step s = .next t ∧ t.phase = .idle ∧ t.attempts = s.attempts + 1 ∧
      t.rsp = some { kind := .protocol, cause := .lenMismatch, busf := none, attempts := s.attempts + 1, payload := .empty }

/-- R176, and R175's last sentence: how an operation completes depends on its request, its plan and the bytes alone. -/
def Obligations.ResultIndependentOfAttempts : Prop :=
  ∀ (s s' : State) (bytes : List Byte) (more more' : List BusOutcome) (t : State), s.quiet → s'.quiet →
    s.phase = .attempt → s'.phase = .attempt → s.req = s'.req → s.plan = s'.plan → s.rlen = s'.rlen →
    s.busPort = .ok bytes :: more → s'.busPort = .ok bytes :: more' → step s = .next t →
    ∃ t' r r', step s' = .next t' ∧ t.rsp = some r ∧ t'.rsp = some r' ∧
      r = { r' with attempts := s.attempts + 1 } ∧ r'.attempts = s'.attempts + 1

/-- R141: from IDLE back to IDLE the sequencer's steps and EXEC (R140) agree on `ATTEMPTS`, `LASTF`, the events, the
outcomes used and the result; and R221 on `DEV_SETUP`. EXEC runs on what the operation's Prepare gives, or, where an
XFER's arguments fail EXEC's own checks, on those arguments. The outcomes come from `busPort` (log 8); that DEV_SETUP
is set where the operation ends in ProtocolError is log 28's, not R221's, and which candidate it takes after a fault is
free (log 10). -/
def Obligations.SequencerAgreesWithExec : Prop :=
  (∀ (s : State) (item : PortWord) (rest : List PortWord) (q : Request) (pr : Prepared) (run : ExecRun),
    s.ready item rest → decodeRequest s.codes item = .ok q.instr → prepare s.codes q = .ok pr →
    run = execTransaction s.addr s.maxRetries s.retryDelay (pr.wbuf.map fun b => (b.toNat : Int)) pr.rlen s.busPort →
    (∀ bs, run.result = .bytes bs →
      ∃ t c, finish q pr.plan bs = .ok c ∧ Sys2Proof.core.run (max 1 (2 * run.attempts)) s = .next t ∧
        t.phase = .idle ∧ t.attempts = run.attempts ∧ t.lastf = run.lastf ∧ t.busPort = run.rest ∧
        t.hist = s.hist ++ .accept q.op q :: run.events ++ [.respond (c.response run.attempts)] ∧
        t.rsp = some (c.response run.attempts) ∧ t.devSetup = lastSetup s.devSetup pr.wbuf) ∧
    (∀ e, run.result = .error e →
      ∃ t k, e = .bus k ∧ Sys2Proof.core.run (2 * run.attempts) s = .next t ∧
        t.phase = .idle ∧ t.attempts = run.attempts ∧ t.lastf = run.lastf ∧ t.busPort = run.rest ∧
        t.hist = s.hist ++ .accept q.op q :: run.events ++ [.respond (errorResponse e run.attempts)] ∧
        t.rsp = some (errorResponse e run.attempts) ∧ t.devSetup ∈ setupCandidates s.devSetup pr.wbuf)) ∧
  (∀ (s : State) (item : PortWord) (rest : List PortWord) (w : List Int) (n : Int) (e : Error) (run : ExecRun),
    s.ready item rest → decodeRequest s.codes item = .ok (.xfer w n) → prepare s.codes (.xfer w n) = .error e →
    run = execTransaction s.addr s.maxRetries s.retryDelay w n s.busPort →
    run.result = .error e ∧
      ∃ t, Sys2Proof.core.run 1 s = .next t ∧
        t.phase = .idle ∧ t.attempts = run.attempts ∧ t.lastf = run.lastf ∧ t.busPort = run.rest ∧
        t.hist = s.hist ++ .accept .xfer (.xfer w n) :: run.events ++ [.respond (errorResponse e run.attempts)] ∧
        t.rsp = some (errorResponse e run.attempts) ∧ t.devSetup = s.devSetup)

/-- R142, R144: every attempt of EXEC (which R141 ties to the sequencer) carries the same address, bytes and length,
there are at most `MAX_RETRIES + 1`, and one wait for each attempt but the first (R135), so that the waiting is at most
`MAX_RETRIES × RETRY_DELAY` `TICK`s, however long a `TICK` is. -/
def Obligations.ExecRetriesTheWholeTransfer : Prop :=
  ∀ (addr : Bits7) (maxRetries retryDelay : Nat) (w : List Int) (n : Int) (outs : List BusOutcome) (run : ExecRun),
    run = execTransaction addr maxRetries retryDelay w n outs →
    run.attempts ≤ maxRetries + 1 ∧
    (∀ e ∈ run.events, e = .wait retryDelay ∨ ∃ out, e = .attempt addr (w.map (BitVec.ofInt 8)) n.toNat out) ∧
    (run.events.filter (fun e => decide (e = .wait retryDelay))).length ≤ maxRetries ∧
    (run.result ≠ .waiting →
      (run.events.filter (fun e => decide (e = .wait retryDelay))).length = run.attempts - 1 ∧
      run.events.length = run.attempts + (run.attempts - 1)) ∧
    (∀ tick : Nat, waitingTime tick run.events ≤ maxRetries * (retryDelay * tick))

/-- R134, R252: where every `BusXfer` returns (`busPort` holds an outcome for each attempt the budget allows: the
fairness assumption R252 asks for), every accepted operation ends, with a response. -/
def Obligations.OperationsEndWhenTheBusAnswers : Prop :=
  ∀ (s : State) (item : PortWord) (rest : List PortWord) (q : Request),
    s.ready item rest → decodeRequest s.codes item = .ok q.instr → s.maxRetries + 1 ≤ s.busPort.length →
    ∃ m t r, 1 ≤ m ∧ m ≤ 2 * (s.maxRetries + 1) ∧ Sys2Proof.core.run m s = .next t ∧ t.phase = .idle ∧
      t.rsp = some r ∧ r.attempts ≤ s.maxRetries + 1 ∧ t.reqPort = rest

/-! ## The device and the wire formats -/

/-- R57, R33: a setup byte delivered in a claim is retained and changes nothing else; without a claim nothing is
delivered. That a byte whose bit 0 is 1 is retained too is the model's reading (log 15), and so are the byte as an
instruction (log 13) and the claim field (log 14). -/
def Obligations.SetupByteIsRetained : Prop :=
  ∀ (s : State) (ref : BitVec 3) (clk pol rst unused : BitVec 1),
    (∀ c, s.claim = some c →
      exec (.setupByte ref clk pol rst unused) s =
        .next { s with devSetup := some (1#1 ++ ref ++ clk ++ pol ++ rst ++ unused) }) ∧
    (s.claim = none → exec (.setupByte ref clk pol rst unused) s = .next s)

/-- R57, R34: a delivered config byte selects the conversion of its own claim; without a claim nothing is kept. The
claim field is the model's (log 14). -/
def Obligations.ConfigByteSelectsInItsClaim : Prop :=
  ∀ (s : State) (cs : BitVec 4) (mode : BitVec 1) (i : Instr) (scan : ScanMode),
    (i = .configBank0 cs mode ∧ scan = .bank0) ∨ (i = .configScanX cs mode ∧ scan = .scanX) ∨
      (i = .configBank6 cs mode ∧ scan = .bank6) ∨ (i = .configOnly cs mode ∧ scan = .only) →
    (∀ c, s.claim = some c →
      exec i s = .next { s with claim := some { c with selected := some (0#1 ++ s.codes.scanCode scan ++ cs ++ mode) } }) ∧
    (s.claim = none → exec i s = .next s)

/-- R150, R86, R56: a received word gives one sample, whatever its padding; without a claim there is nothing to
receive it (the claim field is the model's, log 14). -/
def Obligations.ResultWordUnpacks : Prop :=
  ∀ (s : State) (pad high : BitVec 4) (low : Byte),
    (∀ c, s.claim = some c →
      exec (.resultWord pad high low) s = .next { s with claim := some { c with words := c.words ++ [high ++ low] } }) ∧
    (s.claim = none → exec (.resultWord pad high low) s = .next s)

/-- R55, R57, R72: the claim of a successful attempt is its command bytes and its result words, run as the
instructions they decode to; and the words received are the ones DECODE groups (R151). The claim field and the wire
formats as instructions are the model's (log 13, log 14). -/
def Obligations.ClaimIsMadeOfWireInstructions : Prop :=
  ∀ (s : State) (w bytes : List Byte), s.codes.wf = true →
    runInstrs (w.map (decodeCommand s.codes)) s = .next (s.deliver w) ∧
    runInstrs (resultInstrs bytes) s = .next (s.receive bytes) ∧
    (∀ c, s.claim = some c →
      (s.receive bytes).claim = some { c with words := c.words ++ unpackWords bytes } ∧
      (s.deliver w).devSetup = lastSetup s.devSetup w) ∧
    s.runClaim w bytes = { s with devSetup := lastSetup s.devSetup w, claim := none }

/-! ## Reset and the device's power -/

/-- R36, R240: the values the spec gives for reset (the others are the model's choice: log 2, 3, 4, 22). -/
def Obligations.ResetValues : Prop :=
  State.reset.phase = .idle ∧ State.reset.attempts = 0 ∧ State.reset.rsp = none ∧ State.reset.hist = [] ∧
  State.reset.status = 0x00 ∧ State.reset.rspValid = false ∧ State.reset.busy = false ∧ State.reset.addr = 0x35

/-- R240, R241: a codec reset from any state. The line that asserts it, and that the presented items and the bus's
outcomes stay while the line clears, are the model's choice (log 12); no claim is left (log 14); which candidate DEV_SETUP takes is free (log 10). -/
def Obligations.CodecResetStep : Prop :=
  ∀ s : State, s.resetReq = true →
    ∃ t, step s = .next t ∧ t.phase = .idle ∧ t.attempts = 0 ∧ t.rsp = none ∧ t.hist = [] ∧
      t.addr = s.addr ∧ t.maxRetries = s.maxRetries ∧ t.retryDelay = s.retryDelay ∧ t.codes = s.codes ∧
      t.busPort = s.busPort ∧ t.reqPort = s.reqPort ∧ t.resetReq = false ∧ t.claim = none ∧
      (s.phase = .idle → t.devSetup = s.devSetup) ∧
      (s.phase ≠ .idle → t.devSetup ∈ setupCandidates s.devSetup s.wbuf) ∧
      ((∀ b ∈ s.wbuf, isSetupByte b = false) → t.devSetup = s.devSetup)

/-- R243, R36: a device power cycle loses the setup register and touches nothing of the codec. The line that signals it
is the model's (log 12). -/
def Obligations.PowerCycleStep : Prop :=
  ∀ s : State, s.resetReq = false → s.deviceCycled = true →
    step s = .next { s with devSetup := none, deviceCycled := false }

/-! ## The whole machine -/

/-- R242, R136: in IDLE the step runs the instruction the oldest presented request decodes to, with the request taken
off the port; in a claim in progress it runs the instruction the next item on the wire decodes to, with the item taken
off the wire. The port as a list, oldest first, and the claim field are the model's (log 6, log 13, log 14). -/
def Obligations.StepRunsTheDecodedInstruction : Prop :=
  (∀ (s : State) (item : PortWord) (rest : List PortWord) (i : Instr),
    s.ready item rest → decodeRequest s.codes item = .ok i → step s = exec i { s with reqPort := rest }) ∧
  (∀ (s : State) (c : Claim) (x : WireItem) (more : List WireItem),
    s.resetReq = false → s.deviceCycled = false → s.phase = .attempt → s.claim = some c → c.pending = x :: more →
    step s = exec (decodeWire s.codes x) { s with claim := some { c with pending := more } })

/-- The invariant holds right after reset. -/
def Obligations.InvariantAtReset : Prop := State.reset.Inv

/-- Every step keeps the invariant: `HIST` stays a history of whole operations in the grammar of R32, R61, R134,
R135 and R142, and every response is a legal one (R206). -/
def Obligations.InvariantKept : Prop :=
  ∀ s t : State, s.Inv → step s = .next t → t.Inv

/-- R37, R154: no step from a state of the invariant reads a register without a value or runs short of samples. -/
def Obligations.NoStepFaults : Prop :=
  ∀ (s : State) (f : Fault), s.Inv → step s ≠ .fault f

/-- R21, R22, R215: no step writes an instance constant. That the field codes are such constants is the model's reading
of R6 (log 27). -/
def Obligations.ConstantsNeverChange : Prop :=
  ∀ s t : State, step s = .next t →
    t.addr = s.addr ∧ t.maxRetries = s.maxRetries ∧ t.retryDelay = s.retryDelay ∧ t.codes = s.codes

/-- R25, R27, R142: while an operation is in flight its latched registers stay. -/
def Obligations.LatchedRegistersStay : Prop :=
  ∀ s t : State, s.quiet → s.phase ≠ .idle → step s = .next t →
    t.op = s.op ∧ t.req = s.req ∧ t.plan = s.plan ∧ t.wbuf = s.wbuf ∧ t.rlen = s.rlen

/-- R32: events are only appended; a codec reset alone empties the history. -/
def Obligations.HistoryIsAppended : Prop :=
  ∀ s t : State, step s = .next t → s.resetReq = false → ∃ more, t.hist = s.hist ++ more

/-- R211, R213: an operation in flight ends exactly when its response becomes valid. -/
def Obligations.CompletionIsSignalled : Prop :=
  ∀ s t : State, s.Inv → s.quiet → s.busy = true → step s = .next t →
    (t.busy = false ↔ t.rspValid = true)

/-- R33, R32, R157, R38: the codec never reads the device's setup register or the history: whatever they hold, the
step is the same, and so is all a caller can read (`draws` is the model's own counter, log 10). -/
def Obligations.CodecIgnoresDeviceAndHistory : Prop :=
  ∀ s s' : State, s.erase = s'.erase →
    (∀ t, step s = .next t → ∃ t', step s' = .next t' ∧ t.erase = t'.erase ∧ t.callerView = t'.callerView) ∧
    (∀ f, step s = .fault f → step s' = .fault f) ∧
    (∀ r, step s = .refused r → step s' = .refused r)

/-- R33, R161, R221: a step of an operation changes what is known of the device's register only to a setup byte the
operation writes; with none to write it changes nothing, and so it is with every read. -/
def Obligations.DeviceChangesOnlyBySetupBytes : Prop :=
  ∀ s t : State, s.quiet → s.phase ≠ .idle → step s = .next t →
    t.devSetup ∈ setupCandidates s.devSetup s.wbuf ∧
    ((∀ b ∈ s.wbuf, isSetupByte b = false) → t.devSetup = s.devSetup) ∧
    (s.Inv →
      ((∃ ch mode, s.req = .readSingle ch mode) ∨ (∃ start stop mode, s.req = .readRange start stop mode) ∨
        (∃ start count mode, s.req = .readMultiple start count mode)) →
      t.devSetup = s.devSetup)

/-- R2, R101: outside an attempt nothing reaches the bus or the device: encoding, planning, accepting and waiting leave
DEV_SETUP, the outcomes to come and the claim as they are. -/
def Obligations.OnlyAnAttemptTouchesTheDevice : Prop :=
  ∀ s t : State, s.quiet → s.phase ≠ .attempt → step s = .next t →
    t.devSetup = s.devSetup ∧ t.draws = s.draws ∧ t.busPort = s.busPort ∧ t.claim = none

/-- R55, R137: an attempt that succeeds is one step, and that step is its claim run item by item: the command bytes
written, then the result words read, then the completion. The item-by-item run is the model's (log 13, log 14). -/
def Obligations.AttemptIsItsClaimItemByItem : Prop :=
  ∀ (s : State) (bytes got : List Byte) (more : List BusOutcome), s.codes.wf = true → s.quiet → s.phase = .attempt →
    s.busPort = .ok bytes :: more → got = (if s.rlen = 0 then [] else bytes) →
    step s =
      Sys2Proof.core.run ((claimItems s.wbuf got).length + 1)
        (State.beginClaim s.wbuf got { s with
          attempts := s.attempts + 1, busPort := more,
          hist := s.hist ++ [.attempt s.addr s.wbuf s.rlen (.ok got)] })

/-- R6, R27: `WBUF_MAX` is at least 1, so a realisation takes every request but an XFER whose write list is longer; and
what an accepted request writes in each attempt is as long as that (the widths are arguments, log 20). -/
def Obligations.RealisationTakesWhatFits : Prop :=
  ∀ (r : RealParams) (c : Codes) (q : Request) (pr : Prepared), r.wf = true → prepare c q = .ok pr →
    pr.wbuf.length = q.writeLength ∧
    (realisationTakes r q = false ↔ ∃ w n, q = .xfer w n ∧ r.wbufMax < w.length)
end

