-- ==== Sys2Proof/Laws/State.lean ====
section
/-! SUPPORT. One lemma per field per state update, so that no later proof unfolds a record update. -/

namespace Sys2Proof.Machine


/-! ### endOperation -/

@[simp] theorem State.endOperation_addr (r : Response) (s : State) : (s.endOperation r).addr = s.addr := rfl
@[simp] theorem State.endOperation_maxRetries (r : Response) (s : State) : (s.endOperation r).maxRetries = s.maxRetries := rfl
@[simp] theorem State.endOperation_retryDelay (r : Response) (s : State) : (s.endOperation r).retryDelay = s.retryDelay := rfl
@[simp] theorem State.endOperation_codes (r : Response) (s : State) : (s.endOperation r).codes = s.codes := rfl
@[simp] theorem State.endOperation_phase (r : Response) (s : State) : (s.endOperation r).phase = .idle := rfl
@[simp] theorem State.endOperation_op (r : Response) (s : State) : (s.endOperation r).op = s.op := rfl
@[simp] theorem State.endOperation_req (r : Response) (s : State) : (s.endOperation r).req = s.req := rfl
@[simp] theorem State.endOperation_plan (r : Response) (s : State) : (s.endOperation r).plan = s.plan := rfl
@[simp] theorem State.endOperation_wbuf (r : Response) (s : State) : (s.endOperation r).wbuf = s.wbuf := rfl
@[simp] theorem State.endOperation_rlen (r : Response) (s : State) : (s.endOperation r).rlen = s.rlen := rfl
@[simp] theorem State.endOperation_attempts (r : Response) (s : State) : (s.endOperation r).attempts = s.attempts := rfl
@[simp] theorem State.endOperation_lastf (r : Response) (s : State) : (s.endOperation r).lastf = s.lastf := rfl
@[simp] theorem State.endOperation_rsp (r : Response) (s : State) : (s.endOperation r).rsp = some r := rfl
@[simp] theorem State.endOperation_hist (r : Response) (s : State) : (s.endOperation r).hist = s.hist ++ [.respond r] := rfl
@[simp] theorem State.endOperation_devSetup (r : Response) (s : State) : (s.endOperation r).devSetup = s.devSetup := rfl
@[simp] theorem State.endOperation_claim (r : Response) (s : State) : (s.endOperation r).claim = s.claim := rfl
@[simp] theorem State.endOperation_reqPort (r : Response) (s : State) : (s.endOperation r).reqPort = s.reqPort := rfl
@[simp] theorem State.endOperation_busPort (r : Response) (s : State) : (s.endOperation r).busPort = s.busPort := rfl
@[simp] theorem State.endOperation_resetReq (r : Response) (s : State) : (s.endOperation r).resetReq = s.resetReq := rfl
@[simp] theorem State.endOperation_deviceCycled (r : Response) (s : State) : (s.endOperation r).deviceCycled = s.deviceCycled := rfl
@[simp] theorem State.endOperation_draws (r : Response) (s : State) : (s.endOperation r).draws = s.draws := rfl

/-! ### endWith -/

@[simp] theorem State.endWith_addr (e : Error) (s : State) : (s.endWith e).addr = s.addr := rfl
@[simp] theorem State.endWith_maxRetries (e : Error) (s : State) : (s.endWith e).maxRetries = s.maxRetries := rfl
@[simp] theorem State.endWith_retryDelay (e : Error) (s : State) : (s.endWith e).retryDelay = s.retryDelay := rfl
@[simp] theorem State.endWith_codes (e : Error) (s : State) : (s.endWith e).codes = s.codes := rfl
@[simp] theorem State.endWith_phase (e : Error) (s : State) : (s.endWith e).phase = .idle := rfl
@[simp] theorem State.endWith_op (e : Error) (s : State) : (s.endWith e).op = s.op := rfl
@[simp] theorem State.endWith_req (e : Error) (s : State) : (s.endWith e).req = s.req := rfl
@[simp] theorem State.endWith_plan (e : Error) (s : State) : (s.endWith e).plan = s.plan := rfl
@[simp] theorem State.endWith_wbuf (e : Error) (s : State) : (s.endWith e).wbuf = s.wbuf := rfl
@[simp] theorem State.endWith_rlen (e : Error) (s : State) : (s.endWith e).rlen = s.rlen := rfl
@[simp] theorem State.endWith_attempts (e : Error) (s : State) : (s.endWith e).attempts = s.attempts := rfl
@[simp] theorem State.endWith_lastf (e : Error) (s : State) : (s.endWith e).lastf = s.lastf := rfl
@[simp] theorem State.endWith_rsp (e : Error) (s : State) : (s.endWith e).rsp = some (errorResponse e s.attempts) := rfl
@[simp] theorem State.endWith_hist (e : Error) (s : State) : (s.endWith e).hist = s.hist ++ [.respond (errorResponse e s.attempts)] := rfl
@[simp] theorem State.endWith_devSetup (e : Error) (s : State) : (s.endWith e).devSetup = s.devSetup := rfl
@[simp] theorem State.endWith_claim (e : Error) (s : State) : (s.endWith e).claim = s.claim := rfl
@[simp] theorem State.endWith_reqPort (e : Error) (s : State) : (s.endWith e).reqPort = s.reqPort := rfl
@[simp] theorem State.endWith_busPort (e : Error) (s : State) : (s.endWith e).busPort = s.busPort := rfl
@[simp] theorem State.endWith_resetReq (e : Error) (s : State) : (s.endWith e).resetReq = s.resetReq := rfl
@[simp] theorem State.endWith_deviceCycled (e : Error) (s : State) : (s.endWith e).deviceCycled = s.deviceCycled := rfl
@[simp] theorem State.endWith_draws (e : Error) (s : State) : (s.endWith e).draws = s.draws := rfl

/-! ### latch -/

@[simp] theorem State.latch_addr (q : Request) (s : State) : (s.latch q).addr = s.addr := rfl
@[simp] theorem State.latch_maxRetries (q : Request) (s : State) : (s.latch q).maxRetries = s.maxRetries := rfl
@[simp] theorem State.latch_retryDelay (q : Request) (s : State) : (s.latch q).retryDelay = s.retryDelay := rfl
@[simp] theorem State.latch_codes (q : Request) (s : State) : (s.latch q).codes = s.codes := rfl
@[simp] theorem State.latch_phase (q : Request) (s : State) : (s.latch q).phase = s.phase := rfl
@[simp] theorem State.latch_op (q : Request) (s : State) : (s.latch q).op = q.op := rfl
@[simp] theorem State.latch_req (q : Request) (s : State) : (s.latch q).req = q := rfl
@[simp] theorem State.latch_plan (q : Request) (s : State) : (s.latch q).plan = s.plan := rfl
@[simp] theorem State.latch_wbuf (q : Request) (s : State) : (s.latch q).wbuf = s.wbuf := rfl
@[simp] theorem State.latch_rlen (q : Request) (s : State) : (s.latch q).rlen = s.rlen := rfl
@[simp] theorem State.latch_attempts (q : Request) (s : State) : (s.latch q).attempts = 0 := rfl
@[simp] theorem State.latch_lastf (q : Request) (s : State) : (s.latch q).lastf = none := rfl
@[simp] theorem State.latch_rsp (q : Request) (s : State) : (s.latch q).rsp = none := rfl
@[simp] theorem State.latch_hist (q : Request) (s : State) : (s.latch q).hist = s.hist ++ [.accept q.op q] := rfl
@[simp] theorem State.latch_devSetup (q : Request) (s : State) : (s.latch q).devSetup = s.devSetup := rfl
@[simp] theorem State.latch_claim (q : Request) (s : State) : (s.latch q).claim = s.claim := rfl
@[simp] theorem State.latch_reqPort (q : Request) (s : State) : (s.latch q).reqPort = s.reqPort := rfl
@[simp] theorem State.latch_busPort (q : Request) (s : State) : (s.latch q).busPort = s.busPort := rfl
@[simp] theorem State.latch_resetReq (q : Request) (s : State) : (s.latch q).resetReq = s.resetReq := rfl
@[simp] theorem State.latch_deviceCycled (q : Request) (s : State) : (s.latch q).deviceCycled = s.deviceCycled := rfl
@[simp] theorem State.latch_draws (q : Request) (s : State) : (s.latch q).draws = s.draws := rfl

/-! ### issueAttempt -/

@[simp] theorem State.issueAttempt_addr (w : List Byte) (n : Nat) (out : BusOutcome) (s : State) : (s.issueAttempt w n out).addr = s.addr := rfl
@[simp] theorem State.issueAttempt_maxRetries (w : List Byte) (n : Nat) (out : BusOutcome) (s : State) : (s.issueAttempt w n out).maxRetries = s.maxRetries := rfl
@[simp] theorem State.issueAttempt_retryDelay (w : List Byte) (n : Nat) (out : BusOutcome) (s : State) : (s.issueAttempt w n out).retryDelay = s.retryDelay := rfl
@[simp] theorem State.issueAttempt_codes (w : List Byte) (n : Nat) (out : BusOutcome) (s : State) : (s.issueAttempt w n out).codes = s.codes := rfl
@[simp] theorem State.issueAttempt_phase (w : List Byte) (n : Nat) (out : BusOutcome) (s : State) : (s.issueAttempt w n out).phase = s.phase := rfl
@[simp] theorem State.issueAttempt_op (w : List Byte) (n : Nat) (out : BusOutcome) (s : State) : (s.issueAttempt w n out).op = s.op := rfl
@[simp] theorem State.issueAttempt_req (w : List Byte) (n : Nat) (out : BusOutcome) (s : State) : (s.issueAttempt w n out).req = s.req := rfl
@[simp] theorem State.issueAttempt_plan (w : List Byte) (n : Nat) (out : BusOutcome) (s : State) : (s.issueAttempt w n out).plan = s.plan := rfl
@[simp] theorem State.issueAttempt_wbuf (w : List Byte) (n : Nat) (out : BusOutcome) (s : State) : (s.issueAttempt w n out).wbuf = s.wbuf := rfl
@[simp] theorem State.issueAttempt_rlen (w : List Byte) (n : Nat) (out : BusOutcome) (s : State) : (s.issueAttempt w n out).rlen = s.rlen := rfl
@[simp] theorem State.issueAttempt_attempts (w : List Byte) (n : Nat) (out : BusOutcome) (s : State) : (s.issueAttempt w n out).attempts = s.attempts + 1 := rfl
@[simp] theorem State.issueAttempt_lastf (w : List Byte) (n : Nat) (out : BusOutcome) (s : State) : (s.issueAttempt w n out).lastf = s.lastf := rfl
@[simp] theorem State.issueAttempt_rsp (w : List Byte) (n : Nat) (out : BusOutcome) (s : State) : (s.issueAttempt w n out).rsp = s.rsp := rfl
@[simp] theorem State.issueAttempt_hist (w : List Byte) (n : Nat) (out : BusOutcome) (s : State) : (s.issueAttempt w n out).hist = s.hist ++ [.attempt s.addr w n out] := rfl
@[simp] theorem State.issueAttempt_devSetup (w : List Byte) (n : Nat) (out : BusOutcome) (s : State) : (s.issueAttempt w n out).devSetup = s.devSetup := rfl
@[simp] theorem State.issueAttempt_claim (w : List Byte) (n : Nat) (out : BusOutcome) (s : State) : (s.issueAttempt w n out).claim = s.claim := rfl
@[simp] theorem State.issueAttempt_reqPort (w : List Byte) (n : Nat) (out : BusOutcome) (s : State) : (s.issueAttempt w n out).reqPort = s.reqPort := rfl
@[simp] theorem State.issueAttempt_busPort (w : List Byte) (n : Nat) (out : BusOutcome) (s : State) : (s.issueAttempt w n out).busPort = s.busPort := rfl
@[simp] theorem State.issueAttempt_resetReq (w : List Byte) (n : Nat) (out : BusOutcome) (s : State) : (s.issueAttempt w n out).resetReq = s.resetReq := rfl
@[simp] theorem State.issueAttempt_deviceCycled (w : List Byte) (n : Nat) (out : BusOutcome) (s : State) : (s.issueAttempt w n out).deviceCycled = s.deviceCycled := rfl
@[simp] theorem State.issueAttempt_draws (w : List Byte) (n : Nat) (out : BusOutcome) (s : State) : (s.issueAttempt w n out).draws = s.draws := rfl

/-! ### openClaim -/

@[simp] theorem State.openClaim_addr (s : State) : (s.openClaim).addr = s.addr := rfl
@[simp] theorem State.openClaim_maxRetries (s : State) : (s.openClaim).maxRetries = s.maxRetries := rfl
@[simp] theorem State.openClaim_retryDelay (s : State) : (s.openClaim).retryDelay = s.retryDelay := rfl
@[simp] theorem State.openClaim_codes (s : State) : (s.openClaim).codes = s.codes := rfl
@[simp] theorem State.openClaim_phase (s : State) : (s.openClaim).phase = s.phase := rfl
@[simp] theorem State.openClaim_op (s : State) : (s.openClaim).op = s.op := rfl
@[simp] theorem State.openClaim_req (s : State) : (s.openClaim).req = s.req := rfl
@[simp] theorem State.openClaim_plan (s : State) : (s.openClaim).plan = s.plan := rfl
@[simp] theorem State.openClaim_wbuf (s : State) : (s.openClaim).wbuf = s.wbuf := rfl
@[simp] theorem State.openClaim_rlen (s : State) : (s.openClaim).rlen = s.rlen := rfl
@[simp] theorem State.openClaim_attempts (s : State) : (s.openClaim).attempts = s.attempts := rfl
@[simp] theorem State.openClaim_lastf (s : State) : (s.openClaim).lastf = s.lastf := rfl
@[simp] theorem State.openClaim_rsp (s : State) : (s.openClaim).rsp = s.rsp := rfl
@[simp] theorem State.openClaim_hist (s : State) : (s.openClaim).hist = s.hist := rfl
@[simp] theorem State.openClaim_devSetup (s : State) : (s.openClaim).devSetup = s.devSetup := rfl
@[simp] theorem State.openClaim_claim (s : State) : (s.openClaim).claim = some { selected := none, words := [], pending := [], got := [] } := rfl
@[simp] theorem State.openClaim_reqPort (s : State) : (s.openClaim).reqPort = s.reqPort := rfl
@[simp] theorem State.openClaim_busPort (s : State) : (s.openClaim).busPort = s.busPort := rfl
@[simp] theorem State.openClaim_resetReq (s : State) : (s.openClaim).resetReq = s.resetReq := rfl
@[simp] theorem State.openClaim_deviceCycled (s : State) : (s.openClaim).deviceCycled = s.deviceCycled := rfl
@[simp] theorem State.openClaim_draws (s : State) : (s.openClaim).draws = s.draws := rfl

/-! ### closeClaim -/

@[simp] theorem State.closeClaim_addr (s : State) : (s.closeClaim).addr = s.addr := rfl
@[simp] theorem State.closeClaim_maxRetries (s : State) : (s.closeClaim).maxRetries = s.maxRetries := rfl
@[simp] theorem State.closeClaim_retryDelay (s : State) : (s.closeClaim).retryDelay = s.retryDelay := rfl
@[simp] theorem State.closeClaim_codes (s : State) : (s.closeClaim).codes = s.codes := rfl
@[simp] theorem State.closeClaim_phase (s : State) : (s.closeClaim).phase = s.phase := rfl
@[simp] theorem State.closeClaim_op (s : State) : (s.closeClaim).op = s.op := rfl
@[simp] theorem State.closeClaim_req (s : State) : (s.closeClaim).req = s.req := rfl
@[simp] theorem State.closeClaim_plan (s : State) : (s.closeClaim).plan = s.plan := rfl
@[simp] theorem State.closeClaim_wbuf (s : State) : (s.closeClaim).wbuf = s.wbuf := rfl
@[simp] theorem State.closeClaim_rlen (s : State) : (s.closeClaim).rlen = s.rlen := rfl
@[simp] theorem State.closeClaim_attempts (s : State) : (s.closeClaim).attempts = s.attempts := rfl
@[simp] theorem State.closeClaim_lastf (s : State) : (s.closeClaim).lastf = s.lastf := rfl
@[simp] theorem State.closeClaim_rsp (s : State) : (s.closeClaim).rsp = s.rsp := rfl
@[simp] theorem State.closeClaim_hist (s : State) : (s.closeClaim).hist = s.hist := rfl
@[simp] theorem State.closeClaim_devSetup (s : State) : (s.closeClaim).devSetup = s.devSetup := rfl
@[simp] theorem State.closeClaim_claim (s : State) : (s.closeClaim).claim = none := rfl
@[simp] theorem State.closeClaim_reqPort (s : State) : (s.closeClaim).reqPort = s.reqPort := rfl
@[simp] theorem State.closeClaim_busPort (s : State) : (s.closeClaim).busPort = s.busPort := rfl
@[simp] theorem State.closeClaim_resetReq (s : State) : (s.closeClaim).resetReq = s.resetReq := rfl
@[simp] theorem State.closeClaim_deviceCycled (s : State) : (s.closeClaim).deviceCycled = s.deviceCycled := rfl
@[simp] theorem State.closeClaim_draws (s : State) : (s.closeClaim).draws = s.draws := rfl

/-! ### powerCycle -/

@[simp] theorem State.powerCycle_addr (s : State) : (s.powerCycle).addr = s.addr := rfl
@[simp] theorem State.powerCycle_maxRetries (s : State) : (s.powerCycle).maxRetries = s.maxRetries := rfl
@[simp] theorem State.powerCycle_retryDelay (s : State) : (s.powerCycle).retryDelay = s.retryDelay := rfl
@[simp] theorem State.powerCycle_codes (s : State) : (s.powerCycle).codes = s.codes := rfl
@[simp] theorem State.powerCycle_phase (s : State) : (s.powerCycle).phase = s.phase := rfl
@[simp] theorem State.powerCycle_op (s : State) : (s.powerCycle).op = s.op := rfl
@[simp] theorem State.powerCycle_req (s : State) : (s.powerCycle).req = s.req := rfl
@[simp] theorem State.powerCycle_plan (s : State) : (s.powerCycle).plan = s.plan := rfl
@[simp] theorem State.powerCycle_wbuf (s : State) : (s.powerCycle).wbuf = s.wbuf := rfl
@[simp] theorem State.powerCycle_rlen (s : State) : (s.powerCycle).rlen = s.rlen := rfl
@[simp] theorem State.powerCycle_attempts (s : State) : (s.powerCycle).attempts = s.attempts := rfl
@[simp] theorem State.powerCycle_lastf (s : State) : (s.powerCycle).lastf = s.lastf := rfl
@[simp] theorem State.powerCycle_rsp (s : State) : (s.powerCycle).rsp = s.rsp := rfl
@[simp] theorem State.powerCycle_hist (s : State) : (s.powerCycle).hist = s.hist := rfl
@[simp] theorem State.powerCycle_devSetup (s : State) : (s.powerCycle).devSetup = none := rfl
@[simp] theorem State.powerCycle_claim (s : State) : (s.powerCycle).claim = s.claim := rfl
@[simp] theorem State.powerCycle_reqPort (s : State) : (s.powerCycle).reqPort = s.reqPort := rfl
@[simp] theorem State.powerCycle_busPort (s : State) : (s.powerCycle).busPort = s.busPort := rfl
@[simp] theorem State.powerCycle_resetReq (s : State) : (s.powerCycle).resetReq = s.resetReq := rfl
@[simp] theorem State.powerCycle_deviceCycled (s : State) : (s.powerCycle).deviceCycled = false := rfl
@[simp] theorem State.powerCycle_draws (s : State) : (s.powerCycle).draws = s.draws := rfl

/-! ### popRequest -/

@[simp] theorem State.popRequest_addr (s : State) : (s.popRequest).addr = s.addr := rfl
@[simp] theorem State.popRequest_maxRetries (s : State) : (s.popRequest).maxRetries = s.maxRetries := rfl
@[simp] theorem State.popRequest_retryDelay (s : State) : (s.popRequest).retryDelay = s.retryDelay := rfl
@[simp] theorem State.popRequest_codes (s : State) : (s.popRequest).codes = s.codes := rfl
@[simp] theorem State.popRequest_phase (s : State) : (s.popRequest).phase = s.phase := rfl
@[simp] theorem State.popRequest_op (s : State) : (s.popRequest).op = s.op := rfl
@[simp] theorem State.popRequest_req (s : State) : (s.popRequest).req = s.req := rfl
@[simp] theorem State.popRequest_plan (s : State) : (s.popRequest).plan = s.plan := rfl
@[simp] theorem State.popRequest_wbuf (s : State) : (s.popRequest).wbuf = s.wbuf := rfl
@[simp] theorem State.popRequest_rlen (s : State) : (s.popRequest).rlen = s.rlen := rfl
@[simp] theorem State.popRequest_attempts (s : State) : (s.popRequest).attempts = s.attempts := rfl
@[simp] theorem State.popRequest_lastf (s : State) : (s.popRequest).lastf = s.lastf := rfl
@[simp] theorem State.popRequest_rsp (s : State) : (s.popRequest).rsp = s.rsp := rfl
@[simp] theorem State.popRequest_hist (s : State) : (s.popRequest).hist = s.hist := rfl
@[simp] theorem State.popRequest_devSetup (s : State) : (s.popRequest).devSetup = s.devSetup := rfl
@[simp] theorem State.popRequest_claim (s : State) : (s.popRequest).claim = s.claim := rfl
@[simp] theorem State.popRequest_reqPort (s : State) : (s.popRequest).reqPort = s.reqPort.tail := rfl
@[simp] theorem State.popRequest_busPort (s : State) : (s.popRequest).busPort = s.busPort := rfl
@[simp] theorem State.popRequest_resetReq (s : State) : (s.popRequest).resetReq = s.resetReq := rfl
@[simp] theorem State.popRequest_deviceCycled (s : State) : (s.popRequest).deviceCycled = s.deviceCycled := rfl
@[simp] theorem State.popRequest_draws (s : State) : (s.popRequest).draws = s.draws := rfl

/-! ### deliverByte -/

@[simp] theorem State.deliverByte_addr (b : Byte) (s : State) : (s.deliverByte b).addr = s.addr := by
  unfold State.deliverByte; split <;> (try split) <;> rfl
@[simp] theorem State.deliverByte_maxRetries (b : Byte) (s : State) : (s.deliverByte b).maxRetries = s.maxRetries := by
  unfold State.deliverByte; split <;> (try split) <;> rfl
@[simp] theorem State.deliverByte_retryDelay (b : Byte) (s : State) : (s.deliverByte b).retryDelay = s.retryDelay := by
  unfold State.deliverByte; split <;> (try split) <;> rfl
@[simp] theorem State.deliverByte_codes (b : Byte) (s : State) : (s.deliverByte b).codes = s.codes := by
  unfold State.deliverByte; split <;> (try split) <;> rfl
@[simp] theorem State.deliverByte_phase (b : Byte) (s : State) : (s.deliverByte b).phase = s.phase := by
  unfold State.deliverByte; split <;> (try split) <;> rfl
@[simp] theorem State.deliverByte_op (b : Byte) (s : State) : (s.deliverByte b).op = s.op := by
  unfold State.deliverByte; split <;> (try split) <;> rfl
@[simp] theorem State.deliverByte_req (b : Byte) (s : State) : (s.deliverByte b).req = s.req := by
  unfold State.deliverByte; split <;> (try split) <;> rfl
@[simp] theorem State.deliverByte_plan (b : Byte) (s : State) : (s.deliverByte b).plan = s.plan := by
  unfold State.deliverByte; split <;> (try split) <;> rfl
@[simp] theorem State.deliverByte_wbuf (b : Byte) (s : State) : (s.deliverByte b).wbuf = s.wbuf := by
  unfold State.deliverByte; split <;> (try split) <;> rfl
@[simp] theorem State.deliverByte_rlen (b : Byte) (s : State) : (s.deliverByte b).rlen = s.rlen := by
  unfold State.deliverByte; split <;> (try split) <;> rfl
@[simp] theorem State.deliverByte_attempts (b : Byte) (s : State) : (s.deliverByte b).attempts = s.attempts := by
  unfold State.deliverByte; split <;> (try split) <;> rfl
@[simp] theorem State.deliverByte_lastf (b : Byte) (s : State) : (s.deliverByte b).lastf = s.lastf := by
  unfold State.deliverByte; split <;> (try split) <;> rfl
@[simp] theorem State.deliverByte_rsp (b : Byte) (s : State) : (s.deliverByte b).rsp = s.rsp := by
  unfold State.deliverByte; split <;> (try split) <;> rfl
@[simp] theorem State.deliverByte_hist (b : Byte) (s : State) : (s.deliverByte b).hist = s.hist := by
  unfold State.deliverByte; split <;> (try split) <;> rfl
@[simp] theorem State.deliverByte_reqPort (b : Byte) (s : State) : (s.deliverByte b).reqPort = s.reqPort := by
  unfold State.deliverByte; split <;> (try split) <;> rfl
@[simp] theorem State.deliverByte_busPort (b : Byte) (s : State) : (s.deliverByte b).busPort = s.busPort := by
  unfold State.deliverByte; split <;> (try split) <;> rfl
@[simp] theorem State.deliverByte_resetReq (b : Byte) (s : State) : (s.deliverByte b).resetReq = s.resetReq := by
  unfold State.deliverByte; split <;> (try split) <;> rfl
@[simp] theorem State.deliverByte_deviceCycled (b : Byte) (s : State) : (s.deliverByte b).deviceCycled = s.deviceCycled := by
  unfold State.deliverByte; split <;> (try split) <;> rfl
@[simp] theorem State.deliverByte_draws (b : Byte) (s : State) : (s.deliverByte b).draws = s.draws := by
  unfold State.deliverByte; split <;> (try split) <;> rfl

/-! ### receiveWord -/

@[simp] theorem State.receiveWord_addr (hi lo : Byte) (s : State) : (s.receiveWord hi lo).addr = s.addr := by
  unfold State.receiveWord; split <;> rfl
@[simp] theorem State.receiveWord_maxRetries (hi lo : Byte) (s : State) : (s.receiveWord hi lo).maxRetries = s.maxRetries := by
  unfold State.receiveWord; split <;> rfl
@[simp] theorem State.receiveWord_retryDelay (hi lo : Byte) (s : State) : (s.receiveWord hi lo).retryDelay = s.retryDelay := by
  unfold State.receiveWord; split <;> rfl
@[simp] theorem State.receiveWord_codes (hi lo : Byte) (s : State) : (s.receiveWord hi lo).codes = s.codes := by
  unfold State.receiveWord; split <;> rfl
@[simp] theorem State.receiveWord_phase (hi lo : Byte) (s : State) : (s.receiveWord hi lo).phase = s.phase := by
  unfold State.receiveWord; split <;> rfl
@[simp] theorem State.receiveWord_op (hi lo : Byte) (s : State) : (s.receiveWord hi lo).op = s.op := by
  unfold State.receiveWord; split <;> rfl
@[simp] theorem State.receiveWord_req (hi lo : Byte) (s : State) : (s.receiveWord hi lo).req = s.req := by
  unfold State.receiveWord; split <;> rfl
@[simp] theorem State.receiveWord_plan (hi lo : Byte) (s : State) : (s.receiveWord hi lo).plan = s.plan := by
  unfold State.receiveWord; split <;> rfl
@[simp] theorem State.receiveWord_wbuf (hi lo : Byte) (s : State) : (s.receiveWord hi lo).wbuf = s.wbuf := by
  unfold State.receiveWord; split <;> rfl
@[simp] theorem State.receiveWord_rlen (hi lo : Byte) (s : State) : (s.receiveWord hi lo).rlen = s.rlen := by
  unfold State.receiveWord; split <;> rfl
@[simp] theorem State.receiveWord_attempts (hi lo : Byte) (s : State) : (s.receiveWord hi lo).attempts = s.attempts := by
  unfold State.receiveWord; split <;> rfl
@[simp] theorem State.receiveWord_lastf (hi lo : Byte) (s : State) : (s.receiveWord hi lo).lastf = s.lastf := by
  unfold State.receiveWord; split <;> rfl
@[simp] theorem State.receiveWord_rsp (hi lo : Byte) (s : State) : (s.receiveWord hi lo).rsp = s.rsp := by
  unfold State.receiveWord; split <;> rfl
@[simp] theorem State.receiveWord_hist (hi lo : Byte) (s : State) : (s.receiveWord hi lo).hist = s.hist := by
  unfold State.receiveWord; split <;> rfl
@[simp] theorem State.receiveWord_devSetup (hi lo : Byte) (s : State) : (s.receiveWord hi lo).devSetup = s.devSetup := by
  unfold State.receiveWord; split <;> rfl
@[simp] theorem State.receiveWord_reqPort (hi lo : Byte) (s : State) : (s.receiveWord hi lo).reqPort = s.reqPort := by
  unfold State.receiveWord; split <;> rfl
@[simp] theorem State.receiveWord_busPort (hi lo : Byte) (s : State) : (s.receiveWord hi lo).busPort = s.busPort := by
  unfold State.receiveWord; split <;> rfl
@[simp] theorem State.receiveWord_resetReq (hi lo : Byte) (s : State) : (s.receiveWord hi lo).resetReq = s.resetReq := by
  unfold State.receiveWord; split <;> rfl
@[simp] theorem State.receiveWord_deviceCycled (hi lo : Byte) (s : State) : (s.receiveWord hi lo).deviceCycled = s.deviceCycled := by
  unfold State.receiveWord; split <;> rfl
@[simp] theorem State.receiveWord_draws (hi lo : Byte) (s : State) : (s.receiveWord hi lo).draws = s.draws := by
  unfold State.receiveWord; split <;> rfl

/-! ### beginClaim -/

@[simp] theorem State.beginClaim_addr (w bytes : List Byte) (s : State) : (s.beginClaim w bytes).addr = s.addr := rfl
@[simp] theorem State.beginClaim_maxRetries (w bytes : List Byte) (s : State) : (s.beginClaim w bytes).maxRetries = s.maxRetries := rfl
@[simp] theorem State.beginClaim_retryDelay (w bytes : List Byte) (s : State) : (s.beginClaim w bytes).retryDelay = s.retryDelay := rfl
@[simp] theorem State.beginClaim_codes (w bytes : List Byte) (s : State) : (s.beginClaim w bytes).codes = s.codes := rfl
@[simp] theorem State.beginClaim_phase (w bytes : List Byte) (s : State) : (s.beginClaim w bytes).phase = s.phase := rfl
@[simp] theorem State.beginClaim_op (w bytes : List Byte) (s : State) : (s.beginClaim w bytes).op = s.op := rfl
@[simp] theorem State.beginClaim_req (w bytes : List Byte) (s : State) : (s.beginClaim w bytes).req = s.req := rfl
@[simp] theorem State.beginClaim_plan (w bytes : List Byte) (s : State) : (s.beginClaim w bytes).plan = s.plan := rfl
@[simp] theorem State.beginClaim_wbuf (w bytes : List Byte) (s : State) : (s.beginClaim w bytes).wbuf = s.wbuf := rfl
@[simp] theorem State.beginClaim_rlen (w bytes : List Byte) (s : State) : (s.beginClaim w bytes).rlen = s.rlen := rfl
@[simp] theorem State.beginClaim_attempts (w bytes : List Byte) (s : State) : (s.beginClaim w bytes).attempts = s.attempts := rfl
@[simp] theorem State.beginClaim_lastf (w bytes : List Byte) (s : State) : (s.beginClaim w bytes).lastf = s.lastf := rfl
@[simp] theorem State.beginClaim_rsp (w bytes : List Byte) (s : State) : (s.beginClaim w bytes).rsp = s.rsp := rfl
@[simp] theorem State.beginClaim_hist (w bytes : List Byte) (s : State) : (s.beginClaim w bytes).hist = s.hist := rfl
@[simp] theorem State.beginClaim_devSetup (w bytes : List Byte) (s : State) : (s.beginClaim w bytes).devSetup = s.devSetup := rfl
@[simp] theorem State.beginClaim_reqPort (w bytes : List Byte) (s : State) : (s.beginClaim w bytes).reqPort = s.reqPort := rfl
@[simp] theorem State.beginClaim_busPort (w bytes : List Byte) (s : State) : (s.beginClaim w bytes).busPort = s.busPort := rfl
@[simp] theorem State.beginClaim_resetReq (w bytes : List Byte) (s : State) : (s.beginClaim w bytes).resetReq = s.resetReq := rfl
@[simp] theorem State.beginClaim_deviceCycled (w bytes : List Byte) (s : State) : (s.beginClaim w bytes).deviceCycled = s.deviceCycled := rfl
@[simp] theorem State.beginClaim_draws (w bytes : List Byte) (s : State) : (s.beginClaim w bytes).draws = s.draws := rfl
@[simp] theorem State.beginClaim_claim (w bytes : List Byte) (s : State) : (s.beginClaim w bytes).claim =
    some { selected := none, words := [], pending := claimItems w bytes, got := bytes } := rfl

/-! ### popWire -/

@[simp] theorem State.popWire_addr (s : State) : (s.popWire).addr = s.addr := by
  unfold State.popWire; split <;> rfl
@[simp] theorem State.popWire_maxRetries (s : State) : (s.popWire).maxRetries = s.maxRetries := by
  unfold State.popWire; split <;> rfl
@[simp] theorem State.popWire_retryDelay (s : State) : (s.popWire).retryDelay = s.retryDelay := by
  unfold State.popWire; split <;> rfl
@[simp] theorem State.popWire_codes (s : State) : (s.popWire).codes = s.codes := by
  unfold State.popWire; split <;> rfl
@[simp] theorem State.popWire_phase (s : State) : (s.popWire).phase = s.phase := by
  unfold State.popWire; split <;> rfl
@[simp] theorem State.popWire_op (s : State) : (s.popWire).op = s.op := by
  unfold State.popWire; split <;> rfl
@[simp] theorem State.popWire_req (s : State) : (s.popWire).req = s.req := by
  unfold State.popWire; split <;> rfl
@[simp] theorem State.popWire_plan (s : State) : (s.popWire).plan = s.plan := by
  unfold State.popWire; split <;> rfl
@[simp] theorem State.popWire_wbuf (s : State) : (s.popWire).wbuf = s.wbuf := by
  unfold State.popWire; split <;> rfl
@[simp] theorem State.popWire_rlen (s : State) : (s.popWire).rlen = s.rlen := by
  unfold State.popWire; split <;> rfl
@[simp] theorem State.popWire_attempts (s : State) : (s.popWire).attempts = s.attempts := by
  unfold State.popWire; split <;> rfl
@[simp] theorem State.popWire_lastf (s : State) : (s.popWire).lastf = s.lastf := by
  unfold State.popWire; split <;> rfl
@[simp] theorem State.popWire_rsp (s : State) : (s.popWire).rsp = s.rsp := by
  unfold State.popWire; split <;> rfl
@[simp] theorem State.popWire_hist (s : State) : (s.popWire).hist = s.hist := by
  unfold State.popWire; split <;> rfl
@[simp] theorem State.popWire_devSetup (s : State) : (s.popWire).devSetup = s.devSetup := by
  unfold State.popWire; split <;> rfl
@[simp] theorem State.popWire_reqPort (s : State) : (s.popWire).reqPort = s.reqPort := by
  unfold State.popWire; split <;> rfl
@[simp] theorem State.popWire_busPort (s : State) : (s.popWire).busPort = s.busPort := by
  unfold State.popWire; split <;> rfl
@[simp] theorem State.popWire_resetReq (s : State) : (s.popWire).resetReq = s.resetReq := by
  unfold State.popWire; split <;> rfl
@[simp] theorem State.popWire_deviceCycled (s : State) : (s.popWire).deviceCycled = s.deviceCycled := by
  unfold State.popWire; split <;> rfl
@[simp] theorem State.popWire_draws (s : State) : (s.popWire).draws = s.draws := by
  unfold State.popWire; split <;> rfl

/-! ### drawSetup -/

@[simp] theorem State.drawSetup_addr (w : List Byte) (s : State) : (s.drawSetup w).addr = s.addr := by
  unfold State.drawSetup; split <;> rfl
@[simp] theorem State.drawSetup_maxRetries (w : List Byte) (s : State) : (s.drawSetup w).maxRetries = s.maxRetries := by
  unfold State.drawSetup; split <;> rfl
@[simp] theorem State.drawSetup_retryDelay (w : List Byte) (s : State) : (s.drawSetup w).retryDelay = s.retryDelay := by
  unfold State.drawSetup; split <;> rfl
@[simp] theorem State.drawSetup_codes (w : List Byte) (s : State) : (s.drawSetup w).codes = s.codes := by
  unfold State.drawSetup; split <;> rfl
@[simp] theorem State.drawSetup_phase (w : List Byte) (s : State) : (s.drawSetup w).phase = s.phase := by
  unfold State.drawSetup; split <;> rfl
@[simp] theorem State.drawSetup_op (w : List Byte) (s : State) : (s.drawSetup w).op = s.op := by
  unfold State.drawSetup; split <;> rfl
@[simp] theorem State.drawSetup_req (w : List Byte) (s : State) : (s.drawSetup w).req = s.req := by
  unfold State.drawSetup; split <;> rfl
@[simp] theorem State.drawSetup_plan (w : List Byte) (s : State) : (s.drawSetup w).plan = s.plan := by
  unfold State.drawSetup; split <;> rfl
@[simp] theorem State.drawSetup_wbuf (w : List Byte) (s : State) : (s.drawSetup w).wbuf = s.wbuf := by
  unfold State.drawSetup; split <;> rfl
@[simp] theorem State.drawSetup_rlen (w : List Byte) (s : State) : (s.drawSetup w).rlen = s.rlen := by
  unfold State.drawSetup; split <;> rfl
@[simp] theorem State.drawSetup_attempts (w : List Byte) (s : State) : (s.drawSetup w).attempts = s.attempts := by
  unfold State.drawSetup; split <;> rfl
@[simp] theorem State.drawSetup_lastf (w : List Byte) (s : State) : (s.drawSetup w).lastf = s.lastf := by
  unfold State.drawSetup; split <;> rfl
@[simp] theorem State.drawSetup_rsp (w : List Byte) (s : State) : (s.drawSetup w).rsp = s.rsp := by
  unfold State.drawSetup; split <;> rfl
@[simp] theorem State.drawSetup_hist (w : List Byte) (s : State) : (s.drawSetup w).hist = s.hist := by
  unfold State.drawSetup; split <;> rfl
@[simp] theorem State.drawSetup_claim (w : List Byte) (s : State) : (s.drawSetup w).claim = s.claim := by
  unfold State.drawSetup; split <;> rfl
@[simp] theorem State.drawSetup_reqPort (w : List Byte) (s : State) : (s.drawSetup w).reqPort = s.reqPort := by
  unfold State.drawSetup; split <;> rfl
@[simp] theorem State.drawSetup_busPort (w : List Byte) (s : State) : (s.drawSetup w).busPort = s.busPort := by
  unfold State.drawSetup; split <;> rfl
@[simp] theorem State.drawSetup_resetReq (w : List Byte) (s : State) : (s.drawSetup w).resetReq = s.resetReq := by
  unfold State.drawSetup; split <;> rfl
@[simp] theorem State.drawSetup_deviceCycled (w : List Byte) (s : State) : (s.drawSetup w).deviceCycled = s.deviceCycled := by
  unfold State.drawSetup; split <;> rfl

/-! ### abandon -/

@[simp] theorem State.abandon_addr (s : State) : (s.abandon).addr = s.addr := by
  unfold State.abandon; split <;> simp
@[simp] theorem State.abandon_maxRetries (s : State) : (s.abandon).maxRetries = s.maxRetries := by
  unfold State.abandon; split <;> simp
@[simp] theorem State.abandon_retryDelay (s : State) : (s.abandon).retryDelay = s.retryDelay := by
  unfold State.abandon; split <;> simp
@[simp] theorem State.abandon_codes (s : State) : (s.abandon).codes = s.codes := by
  unfold State.abandon; split <;> simp
@[simp] theorem State.abandon_phase (s : State) : (s.abandon).phase = s.phase := by
  unfold State.abandon; split <;> simp
@[simp] theorem State.abandon_op (s : State) : (s.abandon).op = s.op := by
  unfold State.abandon; split <;> simp
@[simp] theorem State.abandon_req (s : State) : (s.abandon).req = s.req := by
  unfold State.abandon; split <;> simp
@[simp] theorem State.abandon_plan (s : State) : (s.abandon).plan = s.plan := by
  unfold State.abandon; split <;> simp
@[simp] theorem State.abandon_wbuf (s : State) : (s.abandon).wbuf = s.wbuf := by
  unfold State.abandon; split <;> simp
@[simp] theorem State.abandon_rlen (s : State) : (s.abandon).rlen = s.rlen := by
  unfold State.abandon; split <;> simp
@[simp] theorem State.abandon_attempts (s : State) : (s.abandon).attempts = s.attempts := by
  unfold State.abandon; split <;> simp
@[simp] theorem State.abandon_lastf (s : State) : (s.abandon).lastf = s.lastf := by
  unfold State.abandon; split <;> simp
@[simp] theorem State.abandon_rsp (s : State) : (s.abandon).rsp = s.rsp := by
  unfold State.abandon; split <;> simp
@[simp] theorem State.abandon_hist (s : State) : (s.abandon).hist = s.hist := by
  unfold State.abandon; split <;> simp
@[simp] theorem State.abandon_claim (s : State) : (s.abandon).claim = s.claim := by
  unfold State.abandon; split <;> simp
@[simp] theorem State.abandon_reqPort (s : State) : (s.abandon).reqPort = s.reqPort := by
  unfold State.abandon; split <;> simp
@[simp] theorem State.abandon_busPort (s : State) : (s.abandon).busPort = s.busPort := by
  unfold State.abandon; split <;> simp
@[simp] theorem State.abandon_resetReq (s : State) : (s.abandon).resetReq = s.resetReq := by
  unfold State.abandon; split <;> simp
@[simp] theorem State.abandon_deviceCycled (s : State) : (s.abandon).deviceCycled = s.deviceCycled := by
  unfold State.abandon; split <;> simp

/-! ### codecReset -/

@[simp] theorem State.codecReset_addr (s : State) : (s.codecReset).addr = s.addr := by
  simp [State.codecReset, State.reset]
@[simp] theorem State.codecReset_maxRetries (s : State) : (s.codecReset).maxRetries = s.maxRetries := by
  simp [State.codecReset, State.reset]
@[simp] theorem State.codecReset_retryDelay (s : State) : (s.codecReset).retryDelay = s.retryDelay := by
  simp [State.codecReset, State.reset]
@[simp] theorem State.codecReset_codes (s : State) : (s.codecReset).codes = s.codes := by
  simp [State.codecReset, State.reset]
@[simp] theorem State.codecReset_phase (s : State) : (s.codecReset).phase = .idle := by
  simp [State.codecReset, State.reset]
@[simp] theorem State.codecReset_op (s : State) : (s.codecReset).op = State.reset.op := by
  simp [State.codecReset, State.reset]
@[simp] theorem State.codecReset_req (s : State) : (s.codecReset).req = State.reset.req := by
  simp [State.codecReset, State.reset]
@[simp] theorem State.codecReset_plan (s : State) : (s.codecReset).plan = none := by
  simp [State.codecReset, State.reset]
@[simp] theorem State.codecReset_wbuf (s : State) : (s.codecReset).wbuf = [] := by
  simp [State.codecReset, State.reset]
@[simp] theorem State.codecReset_rlen (s : State) : (s.codecReset).rlen = 0 := by
  simp [State.codecReset, State.reset]
@[simp] theorem State.codecReset_attempts (s : State) : (s.codecReset).attempts = 0 := by
  simp [State.codecReset, State.reset]
@[simp] theorem State.codecReset_lastf (s : State) : (s.codecReset).lastf = none := by
  simp [State.codecReset, State.reset]
@[simp] theorem State.codecReset_rsp (s : State) : (s.codecReset).rsp = none := by
  simp [State.codecReset, State.reset]
@[simp] theorem State.codecReset_hist (s : State) : (s.codecReset).hist = [] := by
  simp [State.codecReset, State.reset]
@[simp] theorem State.codecReset_devSetup (s : State) : (s.codecReset).devSetup = s.abandon.devSetup := by
  simp [State.codecReset, State.reset]
@[simp] theorem State.codecReset_claim (s : State) : (s.codecReset).claim = none := by
  simp [State.codecReset, State.reset]
@[simp] theorem State.codecReset_reqPort (s : State) : (s.codecReset).reqPort = s.reqPort := by
  simp [State.codecReset, State.reset]
@[simp] theorem State.codecReset_busPort (s : State) : (s.codecReset).busPort = s.busPort := by
  simp [State.codecReset, State.reset]
@[simp] theorem State.codecReset_resetReq (s : State) : (s.codecReset).resetReq = false := by
  simp [State.codecReset, State.reset]
@[simp] theorem State.codecReset_deviceCycled (s : State) : (s.codecReset).deviceCycled = s.deviceCycled := by
  simp [State.codecReset, State.reset]
@[simp] theorem State.codecReset_draws (s : State) : (s.codecReset).draws = s.abandon.draws := by
  simp [State.codecReset, State.reset]

end Sys2Proof.Machine
end

