-- ==== Sys2Proof/Laws/Units.lean ====
section
/-! SUPPORT. One specification lemma per unit function: encoders, planner, result decoder, request checks. -/

namespace Sys2Proof.Machine

/-! ## Checks -/

@[simp] theorem channelOk_eq_true (ch : Int) : channelOk ch = true ↔ 0 ≤ ch ∧ ch ≤ 11 := by
  simp [channelOk]

@[simp] theorem channelOk_eq_false (ch : Int) : channelOk ch = false ↔ (ch < 0 ∨ 11 < ch) := by
  rw [← Bool.not_eq_true, channelOk_eq_true]; omega

@[simp] theorem byteOk_eq_true (x : Int) : byteOk x = true ↔ 0 ≤ x ∧ x ≤ 255 := by
  simp [byteOk]

theorem all_byteOk (w : List Int) : w.all byteOk = true ↔ ∀ x ∈ w, 0 ≤ x ∧ x ≤ 255 := by
  simp [List.all_eq_true]

/-- R131: the three outcomes of the transfer's checks. -/
theorem checkTransfer_cases (w : List Int) (n : Int) :
    (checkTransfer w n = .error (.range .byteDomain) ∧ ∃ x ∈ w, x < 0 ∨ 255 < x) ∨
    (checkTransfer w n = .error (.range .negLength) ∧ (∀ x ∈ w, 0 ≤ x ∧ x ≤ 255) ∧ n < 0) ∨
    (checkTransfer w n = .ok (w.map narrowByte, n.toNat) ∧ (∀ x ∈ w, 0 ≤ x ∧ x ≤ 255) ∧ 0 ≤ n) := by
  by_cases hw : w.all byteOk = true
  · have hb := (all_byteOk w).1 hw
    by_cases hn : n < 0
    · exact .inr (.inl ⟨by simp [checkTransfer, hw, hn], hb, hn⟩)
    · exact .inr (.inr ⟨by simp [checkTransfer, hw, hn], hb, by omega⟩)
  · refine .inl ⟨by simp [checkTransfer, hw], ?_⟩
    have : ¬ ∀ x ∈ w, 0 ≤ x ∧ x ≤ 255 := fun h => hw ((all_byteOk w).2 h)
    push Not at this
    obtain ⟨x, hx, h⟩ := this
    exact ⟨x, hx, by omega⟩

theorem narrowByte_toNat (b : Byte) : narrowByte (b.toNat : Int) = b := by
  simp [narrowByte]

/-- Bytes presented as integers pass R131's check unchanged. -/
theorem checkTransfer_bytes (bs : List Byte) (n : Nat) :
    checkTransfer (bs.map fun b => (b.toNat : Int)) n = .ok (bs, n) := by
  have h : ∀ x ∈ bs.map fun b => (b.toNat : Int), 0 ≤ x ∧ x ≤ 255 := by
    intro x hx
    obtain ⟨b, -, rfl⟩ := List.mem_map.1 hx
    have := b.isLt
    omega
  have hm : (bs.map fun b => (b.toNat : Int)).map narrowByte = bs := by
    simp [List.map_map, Function.comp_def, narrowByte_toNat]
  simp only [checkTransfer, (all_byteOk _).2 h, hm]
  simp

/-! ## Planner -/

/-- R120, read backwards: what a plan says of its request. -/
theorem planBank_ok {start stop : Int} {p : ScanPlan} (h : planBank start stop = .ok p) :
    0 ≤ start ∧ start ≤ stop ∧ stop ≤ 11 ∧ (p.endChannel : Int) = stop ∧
    ((start < 6 ∧ p.scanMode = .bank0 ∧ p.baseChannel = 0 ∧ (p.wordCount : Int) = stop + 1) ∨
     (6 ≤ start ∧ p.scanMode = .bank6 ∧ p.baseChannel = 6 ∧ (p.wordCount : Int) = stop - 5)) := by
  unfold planBank at h
  split at h
  · cases h
  · split at h
    · cases h
    · split at h
      · cases h
      · simp only [Bool.not_eq_false, channelOk_eq_true] at *
        split at h <;> cases h <;> simp <;> omega

/-- R120: a legal range has a plan. -/
theorem planBank_some {start stop : Int} (h0 : 0 ≤ start) (h1 : start ≤ stop) (h2 : stop ≤ 11) :
    ∃ p, planBank start stop = .ok p := by
  have ha : channelOk start = true := by simp; omega
  have hb : channelOk stop = true := by simp; omega
  have hc : ¬ start > stop := by omega
  simp only [planBank, ha, hb, hc]
  by_cases h : start < 6 <;> simp [h]

theorem planSingle_ok {ch : Int} {p : ScanPlan} (h : planSingle ch = .ok p) :
    0 ≤ ch ∧ ch ≤ 11 ∧ p = { scanMode := .only, baseChannel := ch.toNat, endChannel := ch.toNat, wordCount := 1 } := by
  unfold planSingle at h
  split at h
  · cases h
  · simp only [Bool.not_eq_false, channelOk_eq_true] at *
    cases h
    simp_all

/-- R126, read backwards. -/
theorem planCount_ok {start count : Int} {p : ScanPlan} (h : planCount start count = .ok p) :
    0 ≤ start ∧ 1 ≤ count ∧ start + count - 1 ≤ 11 ∧ planBank start (start + count - 1) = .ok p := by
  unfold planCount at h
  split at h
  · cases h
  · split at h
    · cases h
    · split at h
      · cases h
      · simp only [Bool.not_eq_false, channelOk_eq_true] at *
        exact ⟨by omega, by omega, by omega, h⟩

/-- R126: once its own checks pass, the inner PlanBank cannot fail. -/
theorem planCount_eq {start count : Int} (h0 : 0 ≤ start) (h1 : 1 ≤ count) (h2 : start + count - 1 ≤ 11) :
    planCount start count = planBank start (start + count - 1) := by
  have ha : channelOk start = true := by simp; omega
  have hb : ¬ count < 1 := by omega
  have hc : ¬ start + count - 1 > 11 := by omega
  simp [planCount, ha, hb, hc]

/-! ## Encoders -/

theorem encConfig_ok {c : Codes} {scan : ScanMode} {ch : Int} {mode : InputMode} (h0 : 0 ≤ ch) (h1 : ch ≤ 11) :
    encConfig c scan ch mode = .ok (packConfig (c.scanCode scan) (narrowChannel ch) (c.modeCode mode)) := by
  have : channelOk ch = true := by simp; omega
  simp [encConfig, this]

@[simp] theorem isSetupByte_packSetup (ref : BitVec 3) (clk pol rst unused : BitVec 1) :
    isSetupByte (packSetup ref clk pol rst unused) = true := by
  simp only [isSetupByte, packSetup, BitVec.getLsbD_append]; simp

@[simp] theorem isSetupByte_packConfig (scan : BitVec 2) (cs : BitVec 4) (mode : BitVec 1) :
    isSetupByte (packConfig scan cs mode) = false := by
  simp only [isSetupByte, packConfig, BitVec.getLsbD_append]; simp

/-! ## Result decoder -/

/-- R150: `= hi[3:0] ++ lo[7:0]`. -/
theorem unpack_eq_append (hi lo : Byte) : unpack hi lo = hi.extractLsb' 0 4 ++ lo := by
  apply BitVec.eq_of_getLsbD_eq
  intro i h
  simp only [unpack, BitVec.getLsbD_append, BitVec.getLsbD_or, BitVec.getLsbD_shiftLeft, BitVec.getLsbD_setWidth,
    BitVec.getLsbD_and, BitVec.truncate_eq_setWidth, BitVec.getLsbD_extractLsb']
  interval_cases i <;> simp

/-- R86: the padding nibble is ignored. -/
theorem unpack_append (pad high : BitVec 4) (low : Byte) : unpack (pad ++ high) low = high ++ low := by
  rw [unpack_eq_append]
  congr 1
  apply BitVec.eq_of_getLsbD_eq
  intro i h
  simp only [BitVec.getLsbD_extractLsb', BitVec.getLsbD_append]
  simp [h]

/-- The two nibbles of a byte. -/
theorem nibbles_append (b : Byte) : b.extractLsb' 4 4 ++ b.extractLsb' 0 4 = b := by
  apply BitVec.eq_of_getLsbD_eq
  intro i h
  simp only [BitVec.getLsbD_append, BitVec.getLsbD_extractLsb']
  interval_cases i <;> simp

theorem unpackWords_length : ∀ raw : List Byte, (unpackWords raw).length = raw.length / 2
  | [] => rfl
  | [_] => by simp [unpackWords]
  | hi :: lo :: rest => by
    simp only [unpackWords, List.length_cons, unpackWords_length rest]
    omega

/-- R56: word `i` is bytes `2i` and `2i + 1`. -/
theorem unpackWords_get : ∀ (raw : List Byte) (i : Nat), 2 * i + 1 < raw.length →
    (unpackWords raw)[i]? = some (unpack (raw.getD (2 * i) 0) (raw.getD (2 * i + 1) 0))
  | [], i, h => by simp at h
  | [_], i, h => by simp at h
  | hi :: lo :: rest, 0, _ => by simp [unpackWords]
  | hi :: lo :: rest, i + 1, h => by
    have := unpackWords_get rest i (by simp at h; omega)
    simpa [unpackWords, Nat.mul_add] using this

/-- R152. -/
theorem decodeResult_length {raw : List Byte} {p : ScanPlan} {start count : Nat}
    (h : raw.length = 2 * p.wordCount) :
    decodeResult raw p start count = .ok (((unpackWords raw).drop (start - p.baseChannel)).take count) := by
  simp [decodeResult, h]

theorem decodeResult_mismatch {raw : List Byte} {p : ScanPlan} {start count : Nat}
    (h : raw.length ≠ 2 * p.wordCount) :
    decodeResult raw p start count = .error (.protocol .lenMismatch) := by
  simp [decodeResult, h]

end Sys2Proof.Machine
end

