-- ==== Sys2Proof/Laws/Device.lean ====
section
/-! SUPPORT. What the bus claim and the draw do to the state, said once. -/

namespace Sys2Proof.Machine

/-! ## Delivery and reception -/

theorem State.deliverByte_setup {b : Byte} (h : isSetupByte b = true) {s : State} {c : Claim}
    (hc : s.claim = some c) : s.deliverByte b = { s with devSetup := some b } := by
  simp [State.deliverByte, h, hc]

theorem State.deliverByte_config {b : Byte} (h : isSetupByte b = false) {s : State} {c : Claim}
    (hc : s.claim = some c) : s.deliverByte b = { s with claim := some { c with selected := some b } } := by
  simp [State.deliverByte, h, hc]

/-- R2, R33, R34: outside a claim nothing is delivered. -/
theorem State.deliverByte_free (b : Byte) {s : State} (hc : s.claim = none) : s.deliverByte b = s := by
  simp [State.deliverByte, hc]

theorem State.receiveWord_free (hi lo : Byte) {s : State} (hc : s.claim = none) : s.receiveWord hi lo = s := by
  simp [State.receiveWord, hc]

/-- R57 for one byte: the device's register, and what is selected in the claim. -/
theorem State.deliverByte_eq (b : Byte) {s : State} {c : Claim} (hc : s.claim = some c) :
    s.deliverByte b = { s with
      devSetup := if isSetupByte b then some b else s.devSetup,
      claim := some { c with selected := if isSetupByte b then c.selected else some b } } := by
  by_cases h : isSetupByte b = true
  · simp [State.deliverByte, h, hc]
  · simp [State.deliverByte, h, hc]

theorem State.receiveWord_eq (hi lo : Byte) {s : State} {c : Claim} (hc : s.claim = some c) :
    s.receiveWord hi lo = { s with claim := some { c with words := c.words ++ [unpack hi lo] } } := by
  simp [State.receiveWord, hc]

theorem lastSetup_cons (old : Option Byte) (b : Byte) (w : List Byte) :
    lastSetup old (b :: w) = lastSetup (if isSetupByte b then some b else old) w := by
  by_cases h : isSetupByte b = true
  · simp only [lastSetup, List.filter_cons, h, if_true, List.getLast?_cons]
    cases (w.filter isSetupByte).getLast? <;> rfl
  · simp [lastSetup, h]

/-- R57: the bytes of a write, in order. -/
theorem State.deliver_eq (w : List Byte) : ∀ (s : State) (c : Claim), s.claim = some c →
    ∃ sel, s.deliver w = { s with
      devSetup := lastSetup s.devSetup w, claim := some { c with selected := sel } } := by
  induction w with
  | nil => intro s c hc; exact ⟨c.selected, by simp [State.deliver, lastSetup, ← hc]⟩
  | cons b w ih =>
    intro s c hc
    have h : s.deliver (b :: w) = (s.deliverByte b).deliver w := rfl
    rw [h, State.deliverByte_eq b hc, lastSetup_cons]
    obtain ⟨sel, hs⟩ := ih { s with
      devSetup := if isSetupByte b then some b else s.devSetup,
      claim := some { c with selected := if isSetupByte b then c.selected else some b } } _ rfl
    exact ⟨sel, hs⟩

/-- R56: reception touches the claim alone. -/
theorem State.receive_eq (bytes : List Byte) : ∀ s : State,
    s.receive bytes = { s with claim := (s.receive bytes).claim } := by
  induction bytes using unpackWords.induct with
  | case1 hi lo rest ih =>
    intro s
    have h : s.receive (hi :: lo :: rest) = (s.receiveWord hi lo).receive rest := rfl
    rw [h, ih]
    unfold State.receiveWord
    split <;> rfl
  | case2 bytes hne =>
    intro s
    match bytes, hne with
    | [], _ => rfl
    | [_], _ => rfl
    | a :: b :: r, hne => exact absurd rfl (hne a b r)

/-- R151: the words received in a claim are the ones DECODE groups. -/
theorem State.receive_claim (bytes : List Byte) : ∀ (s : State) (c : Claim), s.claim = some c →
    (s.receive bytes).claim = some { c with words := c.words ++ unpackWords bytes } := by
  induction bytes using unpackWords.induct with
  | case1 hi lo rest ih =>
    intro s c hc
    have h : s.receive (hi :: lo :: rest) = (s.receiveWord hi lo).receive rest := rfl
    rw [h, ih _ { c with words := c.words ++ [unpack hi lo] } (by simp [State.receiveWord, hc])]
    simp [unpackWords]
  | case2 bytes hne =>
    intro s c hc
    match bytes, hne with
    | [], _ => simpa [State.receive, unpackWords] using hc
    | [_], _ => simpa [State.receive, unpackWords] using hc
    | a :: b :: r, hne => exact absurd rfl (hne a b r)

/-- R55, R57: the net effect of a successful attempt's claim. -/
theorem State.runClaim_eq (w bytes : List Byte) (s : State) :
    s.runClaim w bytes = { s with devSetup := lastSetup s.devSetup w, claim := none } := by
  unfold State.runClaim
  obtain ⟨sel, h⟩ := State.deliver_eq w s.openClaim _ rfl
  rw [State.receive_eq, h]
  rfl

/-! ## The draw -/

theorem lastSetup_mem (old : Option Byte) (w : List Byte) : lastSetup old w ∈ setupCandidates old w := by
  unfold lastSetup setupCandidates
  split
  · exact List.mem_cons_self
  · rename_i b h
    exact List.mem_cons_of_mem _ (List.mem_map_of_mem (List.mem_of_getLast? h))

theorem filter_setup_nil {w : List Byte} (h : ∀ b ∈ w, isSetupByte b = false) : w.filter isSetupByte = [] := by
  simp only [List.filter_eq_nil_iff]
  intro b hb
  simp [h b hb]

/-- R221: what is drawn is a candidate. -/
theorem State.drawSetup_mem (w : List Byte) (s : State) :
    (s.drawSetup w).devSetup ∈ setupCandidates s.devSetup w := by
  unfold State.drawSetup
  split
  · exact List.mem_cons_self
  · have : Config.devDraw s.draws % (setupCandidates s.devSetup w).length < (setupCandidates s.devSetup w).length :=
      Nat.mod_lt _ (by simp [setupCandidates])
    simp only [List.getD_eq_getElem?_getD, List.getElem?_eq_getElem this, Option.getD_some]
    exact List.getElem_mem this

/-- R221: "a read operation writes no setup byte and leaves `DEV_SETUP` unchanged". -/
theorem State.drawSetup_none {w : List Byte} (h : ∀ b ∈ w, isSetupByte b = false) (s : State) :
    s.drawSetup w = s := by
  simp [State.drawSetup, filter_setup_nil h]

theorem lastSetup_none {w : List Byte} (h : ∀ b ∈ w, isSetupByte b = false) (old : Option Byte) :
    lastSetup old w = old := by
  simp [lastSetup, filter_setup_nil h]

theorem setupCandidates_none {w : List Byte} (h : ∀ b ∈ w, isSetupByte b = false) (old : Option Byte) :
    setupCandidates old w = [old] := by
  simp [setupCandidates, filter_setup_nil h]

/-- Drawing again stays among the candidates of the first draw. -/
theorem setupCandidates_trans {old d e : Option Byte} {w : List Byte} (hd : d ∈ setupCandidates old w)
    (he : e ∈ setupCandidates d w) : e ∈ setupCandidates old w := by
  rcases List.mem_cons.1 he with rfl | he
  · exact hd
  · exact List.mem_cons_of_mem _ he

/-- The draw as a record update. -/
theorem State.drawSetup_eq (w : List Byte) (s : State) :
    s.drawSetup w = { s with devSetup := (s.drawSetup w).devSetup, draws := (s.drawSetup w).draws } := by
  unfold State.drawSetup; split <;> rfl

theorem State.abandon_mem (s : State) : s.abandon.devSetup ∈ setupCandidates s.devSetup s.wbuf := by
  unfold State.abandon
  split
  · exact List.mem_cons_self
  · exact s.drawSetup_mem s.wbuf

end Sys2Proof.Machine
end

