-- ==== Sys2Proof/Laws/PerInstr.lean ====
section
/-! SUPPORT. Statements made per instruction: the encoder's bits against the row of spec/opcode_table.json. -/

namespace Sys2Proof.Laws.TableRow

/-- The bits the table numbers: OP for a request, the byte for a command, `hi` above `lo` for a result word. -/
def bits : PortItem → Nat
  | .request p => p.op.toNat
  | .command b => b.toNat
  | .word hi lo => hi.toNat * 256 + lo.toNat

/-- The row's mask and the values it lists. SETUP_BYTE's row fixes bit 0 at 0; a byte with bit 0 set is R91's, and its
mask is the marker alone (R72). -/
def row : Instr → Nat × List Nat
  | .setup _ _ _ _ => (0x7, [0x0])
  | .readSingle _ _ => (0x7, [0x1])
  | .readRange _ _ _ => (0x7, [0x2])
  | .readMultiple _ _ _ => (0x7, [0x3])
  | .xfer _ _ => (0x7, [0x4])
  | .reservedOp _ => (0x7, [0x5, 0x6, 0x7])
  | .setupByte _ _ _ _ unused => if unused = 0 then (0x81, [0x80]) else (0x80, [0x80])
  | .configBank0 _ _ => (0xE0, [0x00])
  | .configScanX _ _ => (0xE0, [0x20])
  | .configBank6 _ _ => (0xE0, [0x40])
  | .configOnly _ _ => (0xE0, [0x60])
  | .resultWord _ _ _ => (0x0000, [0x0000])

/-- What a well-formed instruction encodes to matches its row, under the default field codes. -/
def Statement (i : Instr) : Prop :=
  i.wf = true → bits (encodeItem Codes.standard i) &&& (row i).1 ∈ (row i).2

theorem config_bits : ∀ (cs : BitVec 4) (mode : BitVec 1),
    (packConfig 0b00 cs mode).toNat &&& 0xE0 = 0x00 ∧ (packConfig 0b01 cs mode).toNat &&& 0xE0 = 0x20 ∧
    (packConfig 0b10 cs mode).toNat &&& 0xE0 = 0x40 ∧ (packConfig 0b11 cs mode).toNat &&& 0xE0 = 0x60 := by
  decide

theorem setup_bits : ∀ (ref : BitVec 3) (clk pol rst : BitVec 1),
    (packSetup ref clk pol rst 0).toNat &&& 0x81 = 0x80 ∧ (packSetup ref clk pol rst 1).toNat &&& 0x80 = 0x80 := by
  decide

theorem setup (ref : RefSel) (clk : Clock) (pol : Polarity) (rst : ResetSel) :
    Statement (.setup ref clk pol rst) := by
  simp [Statement, bits, encodeItem, row, PortWord.blank]

theorem readSingle (ch : Int) (mode : InputMode) : Statement (.readSingle ch mode) := by
  simp [Statement, bits, encodeItem, row, PortWord.blank]

theorem readRange (start stop : Int) (mode : InputMode) : Statement (.readRange start stop mode) := by
  simp [Statement, bits, encodeItem, row, PortWord.blank]

theorem readMultiple (start count : Int) (mode : InputMode) : Statement (.readMultiple start count mode) := by
  simp [Statement, bits, encodeItem, row, PortWord.blank]

theorem xfer (w : List Int) (n : Int) : Statement (.xfer w n) := by
  simp [Statement, bits, encodeItem, row, PortWord.blank]

theorem reservedOp : ∀ op : BitVec 3, Statement (.reservedOp op) := by
  unfold Statement
  decide

theorem setupByte (ref : BitVec 3) (clk pol rst unused : BitVec 1) :
    Statement (.setupByte ref clk pol rst unused) := by
  intro _
  obtain ⟨h0, h1⟩ := setup_bits ref clk pol rst
  rcases (by decide : ∀ b : BitVec 1, b = 0 ∨ b = 1) unused with rfl | rfl
  · simpa [bits, encodeItem, row] using h0
  · simpa [bits, encodeItem, row] using h1

theorem configBank0 (cs : BitVec 4) (mode : BitVec 1) : Statement (.configBank0 cs mode) := by
  intro _
  simpa [bits, encodeItem, row, Codes.standard, Codes.scanCode] using (config_bits cs mode).1

theorem configScanX (cs : BitVec 4) (mode : BitVec 1) : Statement (.configScanX cs mode) := by
  intro _
  simpa [bits, encodeItem, row, Codes.standard, Codes.scanCode] using (config_bits cs mode).2.1

theorem configBank6 (cs : BitVec 4) (mode : BitVec 1) : Statement (.configBank6 cs mode) := by
  intro _
  simpa [bits, encodeItem, row, Codes.standard, Codes.scanCode] using (config_bits cs mode).2.2.1

theorem configOnly (cs : BitVec 4) (mode : BitVec 1) : Statement (.configOnly cs mode) := by
  intro _
  simpa [bits, encodeItem, row, Codes.standard, Codes.scanCode] using (config_bits cs mode).2.2.2

theorem resultWord (pad high : BitVec 4) (low : Byte) : Statement (.resultWord pad high low) := by
  simp [Statement, bits, encodeItem, row]

end Sys2Proof.Laws.TableRow
end

