-- ==== Sys2Proof/Laws/Requests.lean ====
section
/-! SUPPORT. What Prepare and Finish can give, and how they fit together. -/

namespace Sys2Proof.Machine

/-- What a plan must be for a read's Finish to succeed: `start` and `count` are the samples asked for (R154). -/
def ScanPlan.covers (p : ScanPlan) (start count : Nat) : Prop :=
  p.baseChannel ≤ start ∧ start - p.baseChannel + count = p.wordCount

theorem planBank_covers {start stop : Int} {p : ScanPlan} (h : planBank start stop = .ok p) :
    p.covers start.toNat (stop - start + 1).toNat := by
  obtain ⟨h0, h1, h2, -, ⟨h3, -, hb, hw⟩ | ⟨h3, -, hb, hw⟩⟩ := planBank_ok h <;>
    refine ⟨?_, ?_⟩ <;> rw [hb] <;> omega

theorem planSingle_covers {ch : Int} {p : ScanPlan} (h : planSingle ch = .ok p) : p.covers ch.toNat 1 := by
  obtain ⟨-, -, rfl⟩ := planSingle_ok h
  simp [ScanPlan.covers]

theorem planCount_covers {start count : Int} {p : ScanPlan} (h : planCount start count = .ok p) :
    p.covers start.toNat count.toNat := by
  obtain ⟨h0, h1, -, hp⟩ := planCount_ok h
  have hc := planBank_covers hp
  have : (start + count - 1 - start + 1).toNat = count.toNat := by congr 1; omega
  rwa [this] at hc

/-- R151, R153, R154: with a covering plan and the right length, exactly the samples asked for, each from its own word. -/
theorem decodeResult_covers {raw : List Byte} {p : ScanPlan} {start count : Nat} (hc : p.covers start count)
    (hl : raw.length = 2 * p.wordCount) :
    ∃ ss, decodeResult raw p start count = .ok ss ∧ ss.length = count ∧
      ∀ j, j < count → ss[j]? = some (unpack (raw.getD (2 * (start + j - p.baseChannel)) 0)
        (raw.getD (2 * (start + j - p.baseChannel) + 1) 0)) := by
  obtain ⟨hb, hw⟩ := hc
  have hlen := unpackWords_length raw
  refine ⟨_, decodeResult_length hl, ?_, ?_⟩
  · simp; omega
  · intro j hj
    have : start + j - p.baseChannel = start - p.baseChannel + j := by omega
    rw [List.getElem?_take_of_lt hj, List.getElem?_drop, this]
    exact unpackWords_get raw _ (by omega)

/-- The samples a request asks for, with the plan its Prepare makes (R162, R165, R168). -/
def Request.window : Request → Option (Nat × Nat)
  | .setup _ _ _ _ => none
  | .readSingle ch _ => some (ch.toNat, 1)
  | .readRange start stop _ => some (start.toNat, (stop - start + 1).toNat)
  | .readMultiple start count _ => some (start.toNat, count.toNat)
  | .xfer _ _ => none

/-- What every plan and config byte of a read looks like. -/
theorem prepareRead_ok {c : Codes} {mode : InputMode} {plan : Except Error ScanPlan} {pr : Prepared}
    (h : prepareRead c mode plan = .ok pr) :
    ∃ p, plan = .ok p ∧ p.endChannel ≤ 11 ∧
      pr = { plan := some p,
             wbuf := [packConfig (c.scanCode p.scanMode) (narrowChannel p.endChannel) (c.modeCode mode)],
             rlen := 2 * p.wordCount } := by
  unfold prepareRead at h
  split at h
  · cases h
  · rename_i p
    split at h
    · cases h
    · rename_i b hb
      refine ⟨p, rfl, ?_⟩
      unfold encConfig at hb
      split at hb
      · cases hb
      · rename_i hch
        simp only [Bool.not_eq_false, channelOk_eq_true] at hch
        cases hb; cases h
        exact ⟨by omega, rfl⟩

/-- R170: with a plan in range the ConfigEncoder cannot fail. -/
theorem prepareRead_some {c : Codes} {mode : InputMode} {p : ScanPlan} (h : p.endChannel ≤ 11) :
    prepareRead c mode (.ok p) =
      .ok { plan := some p,
            wbuf := [packConfig (c.scanCode p.scanMode) (narrowChannel p.endChannel) (c.modeCode mode)],
            rlen := 2 * p.wordCount } := by
  simp only [prepareRead, encConfig_ok (c := c) (scan := p.scanMode) (mode := mode) (ch := (p.endChannel : Int))
    (by omega) (by omega)]

/-- What a successful Prepare gives: a read's covering plan, one config byte and two bytes per word, or no plan. -/
theorem prepare_ok_cases {c : Codes} {q : Request} {pr : Prepared} (h : prepare c q = .ok pr) :
    (∃ start count p, q.window = some (start, count) ∧ pr.plan = some p ∧ p.covers start count ∧
      pr.rlen = 2 * p.wordCount ∧ 1 ≤ p.wordCount ∧ ∃ b, pr.wbuf = [b] ∧ isSetupByte b = false) ∨
    (∃ ref clk pol rst, q = .setup ref clk pol rst ∧
      pr = { plan := none, wbuf := [encSetup c ref clk pol rst], rlen := 0 }) ∨
    (∃ w n, q = .xfer w n ∧ (∀ x ∈ w, 0 ≤ x ∧ x ≤ 255) ∧ 0 ≤ n ∧
      pr = { plan := none, wbuf := w.map narrowByte, rlen := n.toNat }) := by
  cases q with
  | setup ref clk pol rst =>
    right; left
    cases h
    exact ⟨ref, clk, pol, rst, rfl, rfl⟩
  | readSingle ch mode =>
    left
    obtain ⟨p, hp, -, rfl⟩ := prepareRead_ok h
    have hw : p.wordCount = 1 := by obtain ⟨-, -, rfl⟩ := planSingle_ok hp; rfl
    exact ⟨_, _, p, rfl, rfl, planSingle_covers hp, rfl, by omega, _, rfl, by simp⟩
  | readRange start stop mode =>
    left
    obtain ⟨p, hp, -, rfl⟩ := prepareRead_ok h
    have hw : 1 ≤ p.wordCount := by
      obtain ⟨h0, h1, h2, -, ⟨-, -, -, hw⟩ | ⟨h3, -, -, hw⟩⟩ := planBank_ok hp <;> omega
    exact ⟨_, _, p, rfl, rfl, planBank_covers hp, rfl, hw, _, rfl, by simp⟩
  | readMultiple start count mode =>
    left
    obtain ⟨p, hp, -, rfl⟩ := prepareRead_ok h
    have hw : 1 ≤ p.wordCount := by
      obtain ⟨h0, h1, h2, -, ⟨-, -, -, hw⟩ | ⟨h3, -, -, hw⟩⟩ := planBank_ok (planCount_ok hp).2.2.2 <;> omega
    exact ⟨_, _, p, rfl, rfl, planCount_covers hp, rfl, hw, _, rfl, by simp⟩
  | xfer w n =>
    right; right
    simp only [prepare, prepareXfer] at h
    rcases checkTransfer_cases w n with ⟨hc, -⟩ | ⟨hc, -⟩ | ⟨hc, hw, hn⟩ <;> rw [hc] at h <;> cases h
    exact ⟨w, n, rfl, hw, hn, rfl⟩

/-- Every error of Prepare is a RangeError (R200). -/
theorem prepare_error {c : Codes} {q : Request} {e : Error} (h : prepare c q = .error e) :
    ∃ k, e = .range k ∧
      k ∈ [Cause.chRange, .endRange, .startGtEnd, .countLow, .countOver, .byteDomain, .negLength] := by
  have read : ∀ (mode : InputMode) (plan : Except Error ScanPlan),
      (∀ e', plan = .error e' → ∃ k, e' = .range k ∧
        k ∈ [Cause.chRange, .endRange, .startGtEnd, .countLow, .countOver, .byteDomain, .negLength]) →
      prepareRead c mode plan = .error e → ∃ k, e = .range k ∧
        k ∈ [Cause.chRange, .endRange, .startGtEnd, .countLow, .countOver, .byteDomain, .negLength] := by
    intro mode plan hplan hr
    unfold prepareRead at hr
    split at hr
    · cases hr; exact hplan _ rfl
    · unfold encConfig at hr
      split at hr <;> rename_i heq <;> split at heq <;> cases heq
      · cases hr; exact ⟨_, rfl, by simp⟩
      · cases hr
  have bank : ∀ (a b : Int) (e' : Error), planBank a b = .error e' → ∃ k, e' = .range k ∧
      k ∈ [Cause.chRange, .endRange, .startGtEnd, .countLow, .countOver, .byteDomain, .negLength] := by
    intro a b e' h'
    unfold planBank at h'
    split at h'
    · cases h'; exact ⟨_, rfl, by simp⟩
    · split at h'
      · cases h'; exact ⟨_, rfl, by simp⟩
      · split at h'
        · cases h'; exact ⟨_, rfl, by simp⟩
        · split at h' <;> cases h'
  cases q with
  | setup ref clk pol rst => cases h
  | readSingle ch mode =>
    refine read _ _ ?_ h
    intro e' h'
    unfold planSingle at h'
    split at h' <;> cases h'
    exact ⟨_, rfl, by simp⟩
  | readRange start stop mode => exact read _ _ (bank _ _) h
  | readMultiple start count mode =>
    refine read _ _ ?_ h
    intro e' h'
    unfold planCount at h'
    split at h'
    · cases h'; exact ⟨_, rfl, by simp⟩
    · split at h'
      · cases h'; exact ⟨_, rfl, by simp⟩
      · split at h'
        · cases h'; exact ⟨_, rfl, by simp⟩
        · exact bank _ _ _ h'
  | xfer w n =>
    simp only [prepare, prepareXfer] at h
    rcases checkTransfer_cases w n with ⟨hc, -⟩ | ⟨hc, -⟩ | ⟨hc, -⟩ <;> rw [hc] at h <;> cases h <;>
      exact ⟨_, rfl, by simp⟩

/-- With the plan of its own Prepare, Finish always ends the operation: with a payload, or with LEN_MISMATCH. -/
theorem finish_total {c : Codes} {q : Request} {pr : Prepared} (h : prepare c q = .ok pr) (bytes : List Byte) :
    (∃ p, finish q pr.plan bytes = .ok (.payload p)) ∨
    (finish q pr.plan bytes = .ok (.error (.protocol .lenMismatch)) ∧ bytes.length ≠ pr.rlen ∧ pr.rlen ≠ 0) := by
  rcases prepare_ok_cases h with ⟨start, count, p, hq, hp, hc, hr, h1, -⟩ | ⟨ref, clk, pol, rst, rfl, rfl⟩ |
    ⟨w, n, rfl, -, hn, rfl⟩
  · by_cases hl : bytes.length = 2 * p.wordCount
    · left
      obtain ⟨ss, hd, hlen, -⟩ := decodeResult_covers hc hl
      cases q with
      | setup ref clk pol rst => cases hq
      | readSingle ch mode =>
        cases hq
        match ss, hlen with
        | [x], _ => exact ⟨.sample x, by simp [finish, finishReadSingle, hp, hd]⟩
      | readRange a b mode =>
        cases hq
        exact ⟨_, by simp [finish, finishReadRange, hp, hd]; rfl⟩
      | readMultiple a b mode =>
        cases hq
        exact ⟨_, by simp [finish, finishReadMultiple, hp, hd]; rfl⟩
      | xfer w n => cases hq
    · right
      have hd := decodeResult_mismatch (start := start) (count := count) hl
      refine ⟨?_, by omega, by omega⟩
      cases q with
      | setup ref clk pol rst => cases hq
      | readSingle ch mode => cases hq; simp [finish, finishReadSingle, hp, hd]
      | readRange a b mode => cases hq; simp [finish, finishReadRange, hp, hd]
      | readMultiple a b mode => cases hq; simp [finish, finishReadMultiple, hp, hd]
      | xfer w n => cases hq
  · exact .inl ⟨.empty, rfl⟩
  · by_cases h0 : n = 0
    · exact .inl ⟨.empty, by simp [finish, finishXfer, h0]⟩
    · by_cases hl : (bytes.length : Int) = n
      · exact .inl ⟨.bytes bytes, by simp [finish, finishXfer, h0, hl]⟩
      · exact .inr ⟨by simp [finish, finishXfer, h0, hl], by simp only; omega, by simp only; omega⟩

/-- R173: only XFER with nothing to do reaches its Finish without the bus. -/
theorem prepare_nothing {c : Codes} {q : Request} {pr : Prepared} (h : prepare c q = .ok pr)
    (h0 : pr.wbuf = [] ∧ pr.rlen = 0) :
    q = .xfer [] 0 ∧ pr.plan = none := by
  rcases prepare_ok_cases h with ⟨_, _, p, -, -, -, -, -, b, hb, -⟩ | ⟨ref, clk, pol, rst, rfl, rfl⟩ |
    ⟨w, n, rfl, -, hn, rfl⟩
  · rw [hb] at h0; simp at h0
  · simp at h0
  · obtain ⟨hw, hr⟩ := h0
    simp only [List.map_eq_nil_iff] at hw
    have : n = 0 := by simp only at hr; omega
    subst hw this
    exact ⟨rfl, rfl⟩

end Sys2Proof.Machine
end

