-- ==== Sys2Proof/Laws/Steps.lean ====
section
/-! SUPPORT. Everything the sequencer's steps can do, said once: equations for each case, and one inversion lemma each. -/

namespace Sys2Proof.Machine

/-! ## ACCEPT -/

theorem exec_request (q : Request) (s : State) : exec q.instr s = accept q s := by
  cases q <;> rfl

theorem accept_busy {s : State} (h : s.phase ≠ .idle) (q : Request) : accept q s = .next s := by
  simp [accept, h]

theorem accept_error {s : State} (h : s.phase = .idle) {q : Request} {k : Cause}
    (hp : prepare s.codes q = .error (.range k)) : accept q s = .next (s.rejected q k) := by
  simp [accept, h, hp, State.rejected, State.endWith, State.endOperation, State.latch, errorResponse, Error.kind,
    Error.cause, Error.busf]

theorem accept_bus {s : State} (h : s.phase = .idle) {q : Request} {pr : Prepared}
    (hp : prepare s.codes q = .ok pr) (hn : ¬(pr.wbuf = [] ∧ pr.rlen = 0)) :
    accept q s = .next (s.accepted q pr.plan pr.wbuf pr.rlen) := by
  simp only [accept, h, hp]
  rw [if_neg (by simp), if_neg hn]
  simp [State.accepted, State.latch]

/-- R132: the state after an XFER with nothing to do. -/
def State.doneNothing (s : State) : State :=
  { s.accepted (.xfer [] 0) none [] 0 with
    phase := .idle
    rsp := some (okResponse .empty 0)
    hist := s.hist ++ [.accept .xfer (.xfer [] 0), .respond (okResponse .empty 0)] }

theorem prepare_xfer_nothing (c : Codes) :
    prepare c (.xfer [] 0) = .ok { plan := none, wbuf := [], rlen := 0 } := by
  simp [prepare, prepareXfer, checkTransfer]

theorem accept_nothing {s : State} (h : s.phase = .idle) : accept (.xfer [] 0) s = .next s.doneNothing := by
  simp only [accept, h, prepare_xfer_nothing]
  simp [State.complete, finish, finishXfer, Completion.response, State.doneNothing, State.accepted,
    State.endOperation, State.latch, Request.op, okResponse]

/-- Everything ACCEPT can do in IDLE. -/
theorem accept_cases {s : State} (h : s.phase = .idle) (q : Request) :
    (∃ k, prepare s.codes q = .error (.range k) ∧
      k ∈ [Cause.chRange, .endRange, .startGtEnd, .countLow, .countOver, .byteDomain, .negLength] ∧
      accept q s = .next (s.rejected q k)) ∨
    (q = .xfer [] 0 ∧ accept q s = .next s.doneNothing) ∨
    (∃ pr, prepare s.codes q = .ok pr ∧ ¬(pr.wbuf = [] ∧ pr.rlen = 0) ∧
      accept q s = .next (s.accepted q pr.plan pr.wbuf pr.rlen)) := by
  cases hp : prepare s.codes q with
  | error e =>
    obtain ⟨k, rfl, hk⟩ := prepare_error hp
    exact .inl ⟨k, rfl, hk, accept_error h hp⟩
  | ok pr =>
    by_cases hn : pr.wbuf = [] ∧ pr.rlen = 0
    · obtain ⟨rfl, -⟩ := prepare_nothing hp hn
      exact .inr (.inl ⟨rfl, accept_nothing h⟩)
    · exact .inr (.inr ⟨pr, rfl, hn, accept_bus h hp hn⟩)

/-! ## ATTEMPT and BACKOFF -/

theorem State.readWork_eq {s : State} (h : s.phase ≠ .idle) :
    s.readWork = some { req := s.req, plan := s.plan, wbuf := s.wbuf, rlen := s.rlen } := by
  simp [State.readWork, h]

theorem BusOutcome.admitted_admitted (n : Nat) (out : BusOutcome) : (out.admitted n).admitted n = out.admitted n := by
  cases out with
  | ok bs => by_cases h : n = 0 <;> simp [BusOutcome.admitted, h]
  | fault k => rfl

/-- R137, R138: the state after an attempt that returned `Ok(got)` and completed with `c`. -/
def State.completed (got : List Byte) (c : Completion) (s : State) : State :=
  { s with
    phase := .idle, attempts := s.attempts + 1, busPort := s.busPort.tail, claim := none,
    devSetup := lastSetup s.devSetup s.wbuf, rsp := some (c.response (s.attempts + 1)),
    hist := s.hist ++ [.attempt s.addr s.wbuf s.rlen (.ok got), .respond (c.response (s.attempts + 1))] }

/-- R137: the state after a faulted attempt, before the retry decision. -/
def State.faulted (k : BusFaultKind) (s : State) : State :=
  { s with
    attempts := s.attempts + 1, lastf := some k, busPort := s.busPort.tail,
    devSetup := (s.drawSetup s.wbuf).devSetup, draws := (s.drawSetup s.wbuf).draws,
    hist := s.hist ++ [.attempt s.addr s.wbuf s.rlen (.fault k)] }

theorem attemptStep_wait {s : State} (h : s.busPort = []) : attemptStep s = .next s := by
  simp [attemptStep, h]

theorem attemptStep_ok {s : State} (h : s.phase ≠ .idle) {bytes : List Byte} {more : List BusOutcome}
    (hb : s.busPort = .ok bytes :: more) :
    attemptStep s =
      match finish s.req s.plan (if s.rlen = 0 then [] else bytes) with
      | .error f => .fault f
      | .ok c => .next (s.completed (if s.rlen = 0 then [] else bytes) c) := by
  have ha : (BusOutcome.ok bytes).admitted s.rlen = .ok (if s.rlen = 0 then [] else bytes) := by
    by_cases h0 : s.rlen = 0 <;> simp [BusOutcome.admitted, h0]
  simp only [attemptStep, hb, State.readWork_eq h, ha, State.complete]
  cases finish s.req s.plan (if s.rlen = 0 then [] else bytes) with
  | error f => rfl
  | ok c => simp [State.runClaim_eq, State.completed, State.endOperation, State.issueAttempt, hb]

theorem attemptStep_fault {s : State} (h : s.phase ≠ .idle) {k : BusFaultKind} {more : List BusOutcome}
    (hb : s.busPort = .fault k :: more) :
    attemptStep s =
      if s.attempts + 1 ≤ s.maxRetries then .next { s.faulted k with phase := .backoff }
      else .next ((s.faulted k).endWith (.bus k)) := by
  have hd : ∀ t : State, t.devSetup = s.devSetup → t.draws = s.draws →
      (t.drawSetup s.wbuf).devSetup = (s.drawSetup s.wbuf).devSetup ∧
      (t.drawSetup s.wbuf).draws = (s.drawSetup s.wbuf).draws := by
    intro t h1 h2
    unfold State.drawSetup
    split <;> simp [h1, h2]
  have hu : ({ (State.issueAttempt s.wbuf s.rlen (.fault k) { s with busPort := more }).drawSetup s.wbuf with
      lastf := some k } : State) = s.faulted k := by
    rw [State.drawSetup_eq]
    obtain ⟨h1, h2⟩ := hd (State.issueAttempt s.wbuf s.rlen (.fault k) { s with busPort := more }) rfl rfl
    rw [h1, h2]
    simp [State.faulted, State.issueAttempt, hb]
  simp only [attemptStep, hb, State.readWork_eq h, BusOutcome.admitted]
  exact congrArg (retryOrEnd k) hu

/-- Everything the ATTEMPT step can do in an operation whose registers come from its own Prepare. -/
theorem attemptStep_cases {s : State} (h : s.phase ≠ .idle)
    (hp : prepare s.codes s.req = .ok { plan := s.plan, wbuf := s.wbuf, rlen := s.rlen }) :
    (s.busPort = [] ∧ attemptStep s = .next s) ∨
    (∃ bytes got c, s.busPort = .ok bytes :: s.busPort.tail ∧ got = (if s.rlen = 0 then [] else bytes) ∧
      finish s.req s.plan got = .ok c ∧ attemptStep s = .next (s.completed got c)) ∨
    (∃ k, s.busPort = .fault k :: s.busPort.tail ∧ s.attempts + 1 ≤ s.maxRetries ∧
      attemptStep s = .next { s.faulted k with phase := .backoff }) ∨
    (∃ k, s.busPort = .fault k :: s.busPort.tail ∧ ¬ s.attempts + 1 ≤ s.maxRetries ∧
      attemptStep s = .next ((s.faulted k).endWith (.bus k))) := by
  cases hb : s.busPort with
  | nil => exact .inl ⟨rfl, attemptStep_wait hb⟩
  | cons out more =>
    cases out with
    | ok bytes =>
      right; left
      have hs := attemptStep_ok h hb
      obtain ⟨c, hc⟩ : ∃ c, finish s.req s.plan (if s.rlen = 0 then [] else bytes) = .ok c := by
        rcases finish_total hp (if s.rlen = 0 then [] else bytes) with ⟨p, hf⟩ | ⟨hf, -⟩
        · exact ⟨_, hf⟩
        · exact ⟨_, hf⟩
      rw [hc] at hs
      exact ⟨bytes, _, c, rfl, rfl, hc, hs⟩
    | fault k =>
      right; right
      have hs := attemptStep_fault h hb
      by_cases hn : s.attempts + 1 ≤ s.maxRetries
      · rw [if_pos hn] at hs; exact .inl ⟨k, rfl, hn, hs⟩
      · rw [if_neg hn] at hs; exact .inr ⟨k, rfl, hn, hs⟩

/-! ## The step -/

/-- Neither external event is asserted. -/
def State.linesLow (s : State) : Prop := s.resetReq = false ∧ s.deviceCycled = false

theorem State.quiet.linesLow {s : State} (h : s.quiet) : s.linesLow := ⟨h.1, h.2.1⟩

theorem State.quiet.claimNone {s : State} (h : s.quiet) : s.claim = none := h.2.2

theorem step_reset {s : State} (h : s.resetReq = true) : step s = .next s.codecReset := by
  simp [step, nextAction, h]

theorem step_power {s : State} (h : s.resetReq = false) (h' : s.deviceCycled = true) :
    step s = .next s.powerCycle := by
  simp [step, nextAction, h, h']

theorem step_attempt {s : State} (hq : s.quiet) (h : s.phase = .attempt) : step s = attemptStep s := by
  simp [step, nextAction, hq.1, hq.2.1, hq.2.2, h]

theorem step_wire {s : State} (hl : s.linesLow) (h : s.phase = .attempt) {c : Claim} (hc : s.claim = some c)
    {x : WireItem} {more : List WireItem} (hp : c.pending = x :: more) :
    step s = exec (decodeWire s.codes x) { s with claim := some { c with pending := more } } := by
  have : nextAction s = .wire x := by simp [nextAction, hl.1, hl.2, h, hc, hp]
  have hw : s.popWire = { s with claim := some { c with pending := more } } := by simp [State.popWire, hc, hp]
  simp only [step, this, hw]

theorem step_endClaim {s : State} (hl : s.linesLow) (h : s.phase = .attempt) {c : Claim} (hc : s.claim = some c)
    (hp : c.pending = []) : step s = s.closeClaim.complete s.req s.plan c.got := by
  have : nextAction s = .endClaim c.got := by simp [nextAction, hl.1, hl.2, h, hc, hp]
  simp only [step, this, finishClaim, State.readWork_eq (s := s) (by simp [h])]

theorem step_backoff {s : State} (hl : s.linesLow) (h : s.phase = .backoff) : step s = backoffStep s := by
  simp [step, nextAction, hl.1, hl.2, h]

theorem step_idle {s : State} (hl : s.linesLow) (h : s.phase = .idle) (hp : s.reqPort = []) : step s = .next s := by
  simp [step, nextAction, hl.1, hl.2, h, hp]

theorem step_take {s : State} (hl : s.linesLow) (h : s.phase = .idle) {item : PortWord} {rest : List PortWord}
    (hp : s.reqPort = item :: rest) :
    step s = match decodeRequest s.codes item with
      | .error e => .refused (refusalOf e)
      | .ok i => exec i s.popRequest := by
  have : nextAction s = .take item := by simp [nextAction, hl.1, hl.2, h, hp]
  cases hd : decodeRequest s.codes item <;> simp only [step, this, hd]

/-- R3, R88: the request port carries the five operations and the reserved codes, nothing else. -/
theorem decodeRequest_cases {c : Codes} {p : PortWord} {i : Instr} (h : decodeRequest c p = .ok i) :
    (∃ q : Request, i = q.instr) ∨ ∃ op, i = .reservedOp op := by
  unfold decodeRequest at h
  split at h
  · split at h <;> cases h
    exact .inl ⟨.setup _ _ _ _, rfl⟩
  · split at h
    · cases h; exact .inl ⟨.readSingle _ _, rfl⟩
    · split at h
      · cases h; exact .inl ⟨.readRange _ _ _, rfl⟩
      · split at h
        · cases h; exact .inl ⟨.readMultiple _ _ _, rfl⟩
        · split at h <;> cases h
          · exact .inl ⟨.xfer _ _, rfl⟩
          · exact .inr ⟨_, rfl⟩

/-- What a wire item does in its claim: the device's register by a setup byte alone, and the claim goes on. -/
theorem exec_wire (cs : Codes) (x : WireItem) {s : State} {c : Claim} (hc : s.claim = some c) :
    ∃ d c', exec (decodeWire cs x) s = .next { s with devSetup := d, claim := some c' } ∧
      c'.pending = c.pending ∧ c'.got = c.got := by
  have byte : ∀ b : Byte, ∃ d c', Host.Outcome.next (s.deliverByte b) =
      (.next { s with devSetup := d, claim := some c' } : Host.Outcome State Fault Refusal) ∧
      c'.pending = c.pending ∧ c'.got = c.got := fun b =>
    ⟨_, _, congrArg Host.Outcome.next (State.deliverByte_eq b hc), rfl, rfl⟩
  cases x with
  | command b =>
    simp only [decodeWire, decodeCommand]
    split
    · exact byte _
    · split <;> exact byte _
  | word hi lo => exact ⟨_, _, congrArg Host.Outcome.next (State.receiveWord_eq _ _ hc), rfl, rfl⟩

/-- Everything a step that answers a next state can be. -/
theorem step_cases {s t : State} (h : step s = .next t) :
    (s.resetReq = true ∧ t = s.codecReset) ∨
    (s.resetReq = false ∧ s.deviceCycled = true ∧ t = s.powerCycle) ∨
    (s.quiet ∧ s.phase = .attempt ∧ attemptStep s = .next t) ∨
    (s.linesLow ∧ s.phase = .attempt ∧ ∃ c, s.claim = some c ∧
      ((∃ d c', t = { s with devSetup := d, claim := some c' }) ∨
        s.closeClaim.complete s.req s.plan c.got = .next t)) ∨
    (s.linesLow ∧ s.phase = .backoff ∧ backoffStep s = .next t) ∨
    (s.linesLow ∧ s.phase = .idle ∧ s.reqPort = [] ∧ t = s) ∨
    (s.linesLow ∧ s.phase = .idle ∧ ∃ item rest q, s.reqPort = item :: rest ∧
      decodeRequest s.codes item = .ok q.instr ∧ accept q s.popRequest = .next t) := by
  by_cases h1 : s.resetReq = true
  · rw [step_reset h1] at h; cases h; exact .inl ⟨h1, rfl⟩
  simp only [Bool.not_eq_true] at h1
  by_cases h2 : s.deviceCycled = true
  · rw [step_power h1 h2] at h; cases h; exact .inr (.inl ⟨h1, h2, rfl⟩)
  simp only [Bool.not_eq_true] at h2
  have hl : s.linesLow := ⟨h1, h2⟩
  refine .inr (.inr ?_)
  have hph : s.phase = .attempt ∨ s.phase = .backoff ∨ s.phase = .idle := by cases s.phase <;> simp
  rcases hph with hph | hph | hph
  · cases hc : s.claim with
    | none =>
      have hq : s.quiet := ⟨h1, h2, hc⟩
      rw [step_attempt hq hph] at h; exact .inl ⟨hq, hph, h⟩
    | some c =>
      refine .inr (.inl ⟨hl, hph, c, rfl, ?_⟩)
      cases hp : c.pending with
      | nil => rw [step_endClaim hl hph hc hp] at h; exact .inr h
      | cons x more =>
        rw [step_wire hl hph hc hp] at h
        obtain ⟨d, c', he, -⟩ := exec_wire s.codes x
          (s := { s with claim := some { c with pending := more } }) rfl
        rw [he] at h
        cases h
        exact .inl ⟨d, c', rfl⟩
  · rw [step_backoff hl hph] at h; exact .inr (.inr (.inl ⟨hl, hph, h⟩))
  · refine .inr (.inr (.inr ?_))
    cases hp : s.reqPort with
    | nil => rw [step_idle hl hph hp] at h; cases h; exact .inl ⟨hl, hph, rfl, rfl⟩
    | cons item rest =>
      rw [step_take hl hph hp] at h
      cases hd : decodeRequest s.codes item with
      | error e => rw [hd] at h; cases h
      | ok i =>
        rw [hd] at h
        obtain ⟨q, rfl⟩ | ⟨op, rfl⟩ := decodeRequest_cases hd
        · exact .inr ⟨hl, hph, item, rest, q, rfl, hd, (exec_request q _).symm.trans h⟩
        · cases h

/-- Every instruction is a request, the reserved one, or a wire format that changes only the device and the claim. -/
theorem exec_cases {i : Instr} {s t : State} (h : exec i s = .next t) :
    (∃ q : Request, i = q.instr ∧ accept q s = .next t) ∨
    t = { s with devSetup := t.devSetup, claim := t.claim } ∧ (s.claim = none → t.claim = none) := by
  have wire : ∀ b : Byte, t = s.deliverByte b →
      t = { s with devSetup := t.devSetup, claim := t.claim } ∧ (s.claim = none → t.claim = none) := by
    rintro b rfl
    cases hc : s.claim with
    | none => rw [State.deliverByte_free b hc]; exact ⟨rfl, fun _ => hc⟩
    | some c => rw [State.deliverByte_eq b hc]; exact ⟨rfl, fun h => by cases h⟩
  cases i with
  | setup ref clk pol rst => exact .inl ⟨.setup ref clk pol rst, rfl, h⟩
  | readSingle ch mode => exact .inl ⟨.readSingle ch mode, rfl, h⟩
  | readRange a b mode => exact .inl ⟨.readRange a b mode, rfl, h⟩
  | readMultiple a b mode => exact .inl ⟨.readMultiple a b mode, rfl, h⟩
  | xfer w n => exact .inl ⟨.xfer w n, rfl, h⟩
  | reservedOp op => cases h
  | setupByte ref clk pol rst unused => right; cases h; exact wire _ rfl
  | configBank0 cs mode => right; cases h; exact wire _ rfl
  | configScanX cs mode => right; cases h; exact wire _ rfl
  | configBank6 cs mode => right; cases h; exact wire _ rfl
  | configOnly cs mode => right; cases h; exact wire _ rfl
  | resultWord pad high low =>
    right; cases h
    unfold State.receiveWord
    split
    · exact ⟨rfl, id⟩
    · rename_i c hc
      exact ⟨rfl, fun h => by rw [hc] at h; cases h⟩

end Sys2Proof.Machine
end

