-- ==== Sys2Proof/Laws/Run.lean ====
section
/-! SUPPORT. Runs of several steps, one step at a time. -/

namespace Sys2Proof.Machine

theorem core_run_zero (s : State) : Sys2Proof.core.run 0 s = .next s := rfl

theorem core_run_succ (m : Nat) {s t : State} (h : step s = .next t) :
    Sys2Proof.core.run (m + 1) s = Sys2Proof.core.run m t := by
  have hs : Sys2Proof.core.step s = .next t := h
  simp only [Host.Core.run, hs]

theorem core_run_one (s : State) : Sys2Proof.core.run 1 s = step s := by
  have hs : Sys2Proof.core.step s = step s := rfl
  simp only [Host.Core.run, hs]
  cases step s <;> rfl

/-- An operation the bus answers at once: the accept step and one attempt. -/
theorem core_run_two {s : State} {item : PortWord} {rest : List PortWord} {q : Request} {pr : Prepared}
    {bytes : List Byte} {more : List BusOutcome} {c : Completion}
    (hr : s.ready item rest) (hd : decodeRequest s.codes item = .ok q.instr) (hp : prepare s.codes q = .ok pr)
    (hn : ¬(pr.wbuf = [] ∧ pr.rlen = 0)) (hb : s.busPort = .ok bytes :: more)
    (hf : finish q pr.plan (if pr.rlen = 0 then [] else bytes) = .ok c) :
    Sys2Proof.core.run 2 s =
      .next ((s.popRequest.accepted q pr.plan pr.wbuf pr.rlen).completed (if pr.rlen = 0 then [] else bytes) c) := by
  have h1 : step s = .next (s.popRequest.accepted q pr.plan pr.wbuf pr.rlen) := by
    rw [step_take hr.1.linesLow hr.2.1 hr.2.2, hd]
    exact (exec_request q _).trans (accept_bus (s := s.popRequest) hr.2.1 hp hn)
  have h2 := attemptStep_ok (s := s.popRequest.accepted q pr.plan pr.wbuf pr.rlen) (by simp [State.accepted])
    (by exact hb)
  have hf' : finish (s.popRequest.accepted q pr.plan pr.wbuf pr.rlen).req
      (s.popRequest.accepted q pr.plan pr.wbuf pr.rlen).plan
      (if (s.popRequest.accepted q pr.plan pr.wbuf pr.rlen).rlen = 0 then [] else bytes) = .ok c := hf
  rw [hf'] at h2
  rw [core_run_succ 1 h1, core_run_succ 0 ((step_attempt (by exact hr.1) rfl).trans h2)]
  rfl

end Sys2Proof.Machine
end

