-- ==== Sys2Proof/Machine/Text.lean ====
section
/-! DEFINITION. The textual syntax of a request (spec/30_encoding.md R93). White space separates and is otherwise
ignored. Log 26. -/

namespace Sys2Proof.Machine

inductive Token
  | word (cs : List Char)
  | comma
  | lbracket
  | rbracket
  deriving DecidableEq, Repr

/-- The word read so far (`acc`, last character first), put before what follows it. -/
def flushWord (acc : List Char) (rest : List Token) : List Token :=
  if acc.isEmpty then rest else .word acc.reverse :: rest

def lexRequest : List Char → List Char → List Token
  | [], acc => flushWord acc []
  | ch :: rest, acc =>
    if ch = ' ' then flushWord acc (lexRequest rest [])
    else if ch = ',' then flushWord acc (.comma :: lexRequest rest [])
    else if ch = '[' then flushWord acc (.lbracket :: lexRequest rest [])
    else if ch = ']' then flushWord acc (.rbracket :: lexRequest rest [])
    else lexRequest rest (ch :: acc)

/-- The value of a digit below `base`. -/
def digitOf (base : Nat) (ch : Char) : Option Nat :=
  let n := ch.toNat
  let v := if 48 ≤ n ∧ n ≤ 57 then n - 48
    else if 97 ≤ n ∧ n ≤ 102 then n - 87
    else if 65 ≤ n ∧ n ≤ 70 then n - 55
    else base
  if v < base then some v else none

def parseDigits (base acc : Nat) : List Char → Option Nat
  | [] => some acc
  | ch :: rest =>
    match digitOf base ch with
    | none => none
    | some d => parseDigits base (acc * base + d) rest

/-- R93: decimal, or hexadecimal after `0x`. -/
def parseMagnitude : List Char → Option Nat
  | [] => none
  | '0' :: 'x' :: [] => none
  | '0' :: 'x' :: rest => parseDigits 16 0 rest
  | cs => parseDigits 10 0 cs

/-- R93: "with an optional leading `-`". -/
def parseInteger : List Char → Option Int
  | '-' :: rest => (parseMagnitude rest).map fun n => -(n : Int)
  | cs => (parseMagnitude cs).map fun n => (n : Int)

def parseRef (cs : List Char) : Option RefSel :=
  if cs = "REF0".toList then some .ref0
  else if cs = "REF1".toList then some .ref1
  else if cs = "REF2".toList then some .ref2
  else if cs = "REF3".toList then some .ref3
  else if cs = "REF4".toList then some .ref4
  else if cs = "REF5".toList then some .ref5
  else none

/-- R93: one of two short names. -/
def parsePair {α : Type} (n₁ n₂ : String) (v₁ v₂ : α) (cs : List Char) : Option α :=
  if cs = n₁.toList then some v₁ else if cs = n₂.toList then some v₂ else none

def parseMode : List Char → Option InputMode := parsePair "SE" "DIFF" .singleEnded .differential

/-- A non-empty list's elements, up to its closing bracket. -/
def parseElements : List Token → Option (List Int × List Token)
  | .word cs :: .rbracket :: rest => (parseInteger cs).map fun x => ([x], rest)
  | .word cs :: .comma :: rest =>
    match parseInteger cs, parseElements rest with
    | some x, some (xs, more) => some (x :: xs, more)
    | _, _ => none
  | _ => none

def parseWriteList : List Token → Option (List Int × List Token)
  | .rbracket :: rest => some ([], rest)
  | ts => parseElements ts

def parseTokens : List Token → Option Request
  | [.word m, .word a, .comma, .word b, .comma, .word c, .comma, .word d] =>
    if m = "SETUP".toList then
      match parseRef a, parsePair "INT" "EXT" Clock.internal Clock.external b,
          parsePair "UNI" "BIP" Polarity.unipolar Polarity.bipolar c,
          parsePair "RST" "NOP" ResetSel.reset ResetSel.noAction d with
      | some ref, some clk, some pol, some rst => some (.setup ref clk pol rst)
      | _, _, _, _ => none
    else none
  | [.word m, .word a, .comma, .word b] =>
    if m = "READ_SINGLE".toList then
      match parseInteger a, parseMode b with
      | some ch, some mode => some (.readSingle ch mode)
      | _, _ => none
    else none
  | [.word m, .word a, .comma, .word b, .comma, .word c] =>
    match parseInteger a, parseInteger b, parseMode c with
    | some x, some y, some mode =>
      if m = "READ_RANGE".toList then some (.readRange x y mode)
      else if m = "READ_MULTIPLE".toList then some (.readMultiple x y mode)
      else none
    | _, _, _ => none
  | .word m :: .lbracket :: rest =>
    if m = "XFER".toList then
      match parseWriteList rest with
      | some (w, [.comma, .word n]) => (parseInteger n).map fun k => .xfer w k
      | _ => none
    else none
  | _ => none

/-- R93: the request a line of text stands for, `none` where it is no request. -/
def parseRequest (text : String) : Option Request := parseTokens (lexRequest text.toList [])

end Sys2Proof.Machine
end

