-- ==== Sys2Proof/Tests/Slice0.lean ====
section
/-! SUPPORT. Tests whose expected values are those of spec/95_test_vectors.md (numbers in the comments), and one witness
per statement that has hypotheses. -/

namespace Sys2Proof.Machine

/-! ## Helpers -/

/-- The next state, if there is one. -/
def nextOf (o : Host.Outcome State Fault Refusal) : Option State :=
  match o with
  | .next t => some t
  | .fault _ => none
  | .refused _ => none

/-- An idle codec with one request presented and the bus outcomes given. -/
def presented (item : PortWord) (outs : List BusOutcome) (retries : Nat := 0) : State :=
  { State.reset with maxRetries := retries, retryDelay := 5, reqPort := [item], busPort := outs }

def singleItem : PortWord := { PortWord.blank 1 with arg0 := 3, mode := 1 }

def rangeItem : PortWord := { PortWord.blank 2 with arg0 := 6, arg1 := 9, mode := 1 }

def setupItem : PortWord := { PortWord.blank 0 with rst := 1 }

/-- READ_SINGLE 3, SE in ATTEMPT. -/
def reading (outs : List BusOutcome) (retries : Nat := 1) : State :=
  { State.reset with
    maxRetries := retries, retryDelay := 5, phase := .attempt, op := .readSingle,
    req := .readSingle 3 .singleEnded,
    plan := some { scanMode := .only, baseChannel := 3, endChannel := 3, wordCount := 1 },
    wbuf := [0x67], rlen := 2, busPort := outs,
    hist := [.accept .readSingle (.readSingle 3 .singleEnded)] }

/-- The same, waiting after one NACK. -/
def waiting : State :=
  { reading [] with
    phase := .backoff, attempts := 1, lastf := some .nack,
    hist := [.accept .readSingle (.readSingle 3 .singleEnded), .attempt 0x35 [0x67] 2 (.fault .nack)] }

/-- SETUP REF0, INT, UNI, NOP in ATTEMPT. -/
def settingUp (outs : List BusOutcome) : State :=
  { State.reset with
    phase := .attempt, op := .setup, req := .setup .ref0 .internal .unipolar .noAction, wbuf := [0x82], rlen := 0,
    busPort := outs, hist := [.accept .setup (.setup .ref0 .internal .unipolar .noAction)] }

/-! ## WellFormed and Decode -/

theorem test_wf_refuses_unreserved_op : (Instr.reservedOp 4).wf = false := by decide

theorem test_codes_wf : Codes.standard.wf = true := by decide

theorem test_codes_wf_refuses_a_shared_code : ({ Codes.standard with ref1 := 0b000 } : Codes).wf = false := by decide

/-- P1 request 1. -/
theorem test_decode_setup : decodeItem Codes.standard (.request setupItem) =
    .ok (.setup .ref0 .internal .unipolar .noAction) := by decide

/-- P1 request 2. -/
theorem test_decode_readSingle : decodeItem Codes.standard (.request singleItem) = .ok (.readSingle 3 .singleEnded) := by decide

/-- P2 request 2. -/
theorem test_decode_readRange : decodeItem Codes.standard (.request rangeItem) = .ok (.readRange 6 9 .singleEnded) := by decide

/-- P1 request 4. -/
theorem test_decode_readMultiple :
    decodeItem Codes.standard (.request { PortWord.blank 3 with arg0 := 10, arg1 := 2, mode := 1 }) =
      .ok (.readMultiple 10 2 .singleEnded) := by decide

/-- P3 request 4. -/
theorem test_decode_xfer :
    decodeItem Codes.standard (.request { PortWord.blank 4 with wlist := [0x80, 0x0F], arg1 := 16 }) =
      .ok (.xfer [0x80, 0x0F] 16) := by decide

/-- 2.9.2. -/
theorem test_decode_reservedOp : decodeTableWord 8 0b101 = some (.reservedOp 0b101) := by decide

/-- 2.9.3. -/
theorem test_decode_reservedRef :
    decodeItem Codes.standard (.request { PortWord.blank 0 with ref := 6 }) = .error (.reservedRef 6) := by decide

/-- 2.1.6: 1 110 1 0 0 0. -/
theorem test_decode_setupByte : decodeTableWord 8 0b11101000 = some (.setupByte 0b110 1 0 0 0) := by decide

/-- R91: bit 0 of a setup byte may be 1 in an XFER. -/
theorem test_decode_setupByte_bit0 : decodeTableWord 8 0b10000011 = some (.setupByte 0b000 0 0 1 1) := by decide

/-- 2.2.4: 0 00 1011 1. -/
theorem test_decode_configBank0 : decodeTableWord 8 0b00010111 = some (.configBank0 11 1) := by decide

/-- 2.2.9: 0 01 0101 1. -/
theorem test_decode_configScanX : decodeTableWord 8 0b00101011 = some (.configScanX 5 1) := by decide

/-- 2.2.12: 0 10 1000 0. -/
theorem test_decode_configBank6 : decodeTableWord 8 0b01010000 = some (.configBank6 8 0) := by decide

/-- 2.2.1: 0 11 0000 1. -/
theorem test_decode_configOnly : decodeTableWord 8 0b01100001 = some (.configOnly 0 1) := by decide

/-- 2.5.6. -/
theorem test_decode_resultWord : decodeTableWord 16 0x5ABC = some (.resultWord 0x5 0xA 0xBC) := by decide

theorem test_encode_setup : encodeItem Codes.standard (.setup .ref5 .external .bipolar .noAction) =
    .request { PortWord.blank 0 with ref := 5, clk := 1, pol := 1, rst := 1 } := by decide

/-! ## Text -/

theorem test_text_setup : parseRequest "SETUP REF0, INT, UNI, NOP" = some (.setup .ref0 .internal .unipolar .noAction) := by
  decide

theorem test_text_single : parseRequest "READ_SINGLE -1, DIFF" = some (.readSingle (-1) .differential) := by decide

theorem test_text_xfer : parseRequest "XFER [0x80, 0x0F], 16" = some (.xfer [128, 15] 16) := by decide

theorem test_text_xfer_empty : parseRequest "XFER [], 0" = some (.xfer [] 0) := by decide

/-! ## Units -/

/-- 2.1.5 and 2.1.7. -/
theorem test_encSetup : encSetup Codes.standard .ref3 .internal .bipolar .noAction = 0xD6 ∧
    encSetup Codes.standard .ref5 .external .bipolar .noAction = 0xFE := by decide

/-- 2.2.1, 2.2.2, 2.2.13 and 2.2.14. -/
theorem test_encConfig : encConfig Codes.standard .only 0 .singleEnded = .ok 0x61 ∧
    encConfig Codes.standard .only 11 .differential = .ok 0x76 ∧
    encConfig Codes.standard .bank0 12 .singleEnded = .error (.range .chRange) ∧
    encConfig Codes.standard .bank0 (-1) .singleEnded = .error (.range .chRange) := by decide

/-- 2.3.3, 2.3.7, 2.3.13 and 2.3.14. -/
theorem test_planBank :
    planBank 5 6 = .ok { scanMode := .bank0, baseChannel := 0, endChannel := 6, wordCount := 7 } ∧
    planBank 11 11 = .ok { scanMode := .bank6, baseChannel := 6, endChannel := 11, wordCount := 6 } ∧
    planBank 12 (-1) = .error (.range .chRange) ∧ planBank 7 12 = .error (.range .endRange) := by decide

/-- 2.3.17, 2.3.21, 2.3.28 and 2.3.31. -/
theorem test_planSingle_planCount :
    planSingle 7 = .ok { scanMode := .only, baseChannel := 7, endChannel := 7, wordCount := 1 } ∧
    planCount 4 3 = .ok { scanMode := .bank0, baseChannel := 0, endChannel := 6, wordCount := 7 } ∧
    planCount 6 7 = .error (.range .countOver) ∧ planCount 12 0 = .error (.range .chRange) := by decide

/-- 2.5.4, 2.5.6 and 2.5.9. -/
theorem test_unpack : unpack 0xFF 0xFF = 0xFFF ∧ unpack 0x5A 0xBC = 0xABC ∧ unpack 0x10 0x00 = 0 := by decide

/-- 2.5.11 and 2.5.17. -/
theorem test_decodeResult :
    decodeResult [0x01, 0x00, 0x02, 0x00, 0x03, 0x00, 0x04, 0x00]
      { scanMode := .bank6, baseChannel := 6, endChannel := 9, wordCount := 4 } 8 2 = .ok [0x300, 0x400] ∧
    decodeResult [0xF4, 0xD2, 0x00] { scanMode := .only, baseChannel := 3, endChannel := 3, wordCount := 1 } 3 1 =
      .error (.protocol .lenMismatch) := by decide

/-- 2.4.5 and 2.4.7. -/
theorem test_checkTransfer : checkTransfer [300] (-1) = .error (.range .byteDomain) ∧
    checkTransfer [] (-1) = .error (.range .negLength) := by decide

/-- 2.4.14. -/
theorem test_exec_last_kind :
    execTransaction 0x35 2 5 [0x61] 2 [.fault .nack, .fault .timeout, .fault .arbLost] =
      { attempts := 3, lastf := some .arbLost, result := .error (.bus .arbLost), rest := [],
        events := [.attempt 0x35 [0x61] 2 (.fault .nack), .wait 5, .attempt 0x35 [0x61] 2 (.fault .timeout), .wait 5,
          .attempt 0x35 [0x61] 2 (.fault .arbLost)] } := by decide

/-- Section 2.7. -/
theorem test_status : (errorResponse (.range .negLength) 0).status = 0x71 ∧
    (errorResponse (.bus .arbLost) 1).status = 0x0A ∧ (errorResponse (.protocol .lenMismatch) 1).status = 0x83 := by
  decide

/-! ## One step -/

/-- 2.6.1: the byte written. -/
theorem test_step_setup :
    (nextOf (step (presented setupItem []))).map (fun t => (t.phase, t.wbuf, t.rlen)) = some (.attempt, [0x82], 0) := by
  decide

/-- P1 request 2. -/
theorem test_step_readSingle :
    (nextOf (step (presented singleItem []))).map (fun t => (t.wbuf, t.rlen)) = some ([0x67], 2) := by decide

/-- Section 1.1. -/
theorem test_step_readRange :
    (nextOf (step (presented rangeItem []))).map (fun t => (t.wbuf, t.rlen)) = some ([0x53], 8) := by decide

/-- 2.6.10. -/
theorem test_step_readMultiple :
    (nextOf (exec (.readMultiple 10 2 .singleEnded) State.reset)).map (fun t => (t.wbuf, t.rlen)) =
      some ([0x57], 12) := by decide

/-- 2.6.18. -/
theorem test_step_xfer :
    (nextOf (exec (.xfer [0x7F] 2) State.reset)).map (fun t => (t.wbuf, t.rlen)) = some ([0x7F], 2) := by decide

/-- 2.6.14. -/
theorem test_step_xfer_nothing :
    (nextOf (exec (.xfer [] 0) State.reset)).map (fun t => (t.phase, t.rsp)) =
      some (.idle, some (okResponse .empty 0)) := by decide

/-- 2.6.29. -/
theorem test_step_range_error :
    (nextOf (exec (.readMultiple 10 3 .singleEnded) State.reset)).map (fun t => (t.phase, t.status)) =
      some (.idle, 0x51) := by decide

/-- P1 request 2: 0x4D2 is 1234. -/
theorem test_step_sample :
    (nextOf (step (reading [.ok [0xF4, 0xD2]]))).map (fun t => (t.phase, t.rsp)) =
      some (.idle, some (okResponse (.sample 1234) 1)) := by decide

/-- 2.6.19. -/
theorem test_step_protocol_error :
    (nextOf (step (reading [.ok [0xF0, 0x00, 0x00]]))).map State.status = some 0x83 := by decide

/-- 2.4.22: a fault with a retry left. -/
theorem test_step_retry :
    (nextOf (step (reading [.fault .nack]))).map (fun t => (t.phase, t.attempts, t.lastf)) =
      some (.backoff, 1, some .nack) := by decide

/-- 2.6.21: with no retry the fault surfaces. -/
theorem test_step_bus_fault :
    (nextOf (step (reading [.fault .timeout] 0))).map (fun t => (t.phase, t.status)) = some (.idle, 0x0E) := by decide

/-- 2.8.1. -/
theorem test_step_device_setup : (nextOf (step (settingUp [.ok []]))).map State.devSetup = some (some 0x82) := by decide

/-- 2.9.5. -/
theorem test_step_reset :
    (nextOf (step { waiting with resetReq := true })).map (fun t => (t.phase, t.attempts, t.rsp, t.hist)) =
      some (.idle, 0, none, []) := by decide

/-- 2.8.9. -/
theorem test_step_power_cycle :
    (nextOf (step { State.reset with devSetup := some 0x82, deviceCycled := true })).map State.devSetup = some none := by
  decide

/-- The first instruction after reset is the placed one: a request, a command byte and a result word. -/
theorem test_withFetchWord :
    nextOf (step (State.reset.withFetchWord 8 1)) =
      nextOf (exec (.readSingle 0 .differential) State.reset) ∧
    nextOf (step (State.reset.withFetchWord 8 0x82)) =
      nextOf (exec (.setupByte 0 0 0 1 0) { State.reset.openClaim with phase := .attempt }) ∧
    nextOf (step (State.reset.withFetchWord 16 0xF123)) =
      nextOf (exec (.resultWord 0xF 0x1 0x23) { State.reset.openClaim with phase := .attempt }) := by decide

/-- R2, R33: without a claim nothing is delivered. -/
theorem test_setupByte_without_claim : nextOf (exec (.setupByte 0 0 0 1 0) State.reset) = some State.reset := by decide

/-- 2.8.4: the last setup byte delivered. -/
theorem test_setupByte :
    (nextOf (exec (.setupByte 0b100 0 0 1 0) { State.reset.openClaim with devSetup := some 0xA2 })).map State.devSetup =
      some (some 0xC2) := by decide

/-- A config byte selects in the claim it is delivered in (2.2.5). -/
theorem test_configByte :
    (nextOf (exec (.configBank6 9 1) State.reset.openClaim)).map State.claim =
      some (some { selected := some 0x53, words := [], pending := [], got := [] }) := by decide

/-- 2.5.7. -/
theorem test_resultWord :
    (nextOf (exec (.resultWord 0xF 0x1 0x23) State.reset.openClaim)).map State.claim =
      some (some { selected := none, words := [0x123], pending := [], got := [] }) := by decide

/-! ## Witnesses: every hypothesis can be met -/

theorem witness_DecodeEncodeAllInstructions :
    Codes.standard.wf = true ∧ (Instr.reservedOp 5).wf = true ∧ (Instr.xfer [-1, 256] (-1)).wf = true := by decide

theorem witness_EncodeDecodeWireFormats : Codes.standard.wf = true := by decide

theorem witness_ReservedRequestsRefused :
    (presented (PortWord.blank 5) []).ready (PortWord.blank 5) [] ∧
    5 ≤ (PortWord.blank 5).op.toNat ∧
    (presented { PortWord.blank 0 with ref := 6 } []).ready { PortWord.blank 0 with ref := 6 } [] ∧
    6 ≤ ({ PortWord.blank 0 with ref := 6 } : PortWord).ref.toNat := by
  unfold State.ready State.quiet
  decide

/-- Both ends of the range of 4 bits, and just outside them. -/
theorem witness_RealisationPresentsWhatItCarries : 1 ≤ 4 ∧
    (-(2 : Int) ^ (4 - 1) ≤ -8 ∧ (7 : Int) < (2 : Int) ^ (4 - 1)) ∧
    realisationCarries 4 { PortWord.blank 4 with wlist := [7, -8], arg0 := -8, arg1 := 7 } = true ∧
    realisationCarries 4 { PortWord.blank 2 with arg0 := 8 } = false ∧
    realisationCarries 4 { PortWord.blank 2 with arg1 := -9 } = false ∧
    (toRealWord 4 { PortWord.blank 2 with arg0 := 8 }).toPort.arg0 = -8 := by decide

theorem witness_EncSetupInjective : Codes.standard.wf = true ∧
    encSetup Codes.standard .ref0 .internal .unipolar .reset = encSetup Codes.standard .ref0 .internal .unipolar .reset := by
  decide

/-- Both ends of the channel range, and just outside them. -/
theorem witness_EncConfigFormula : encConfig Codes.standard .scanX 0 .differential = .ok 0x20 ∧
    encConfig Codes.standard .scanX 11 .differential = .ok 0x36 ∧
    encConfig Codes.standard .scanX 12 .differential = .error (.range .chRange) ∧
    encConfig Codes.standard .scanX (-1) .differential = .error (.range .chRange) := by decide

theorem witness_EncConfigInjective : Codes.standard.wf = true ∧
    encConfig Codes.standard .only 11 .singleEnded = .ok 0x77 := by decide

/-- Every clause at a boundary: -1, 12; end -1, 12; start = end + 1; start 0, 5, 6, 11; end 11. -/
theorem witness_PlanBankValues :
    planBank (-1) 3 = .error (.range .chRange) ∧ planBank 12 11 = .error (.range .chRange) ∧
    planBank 0 (-1) = .error (.range .endRange) ∧ planBank 11 12 = .error (.range .endRange) ∧
    planBank 1 0 = .error (.range .startGtEnd) ∧
    planBank 0 0 = .ok { scanMode := .bank0, baseChannel := 0, endChannel := 0, wordCount := 1 } ∧
    planBank 5 11 = .ok { scanMode := .bank0, baseChannel := 0, endChannel := 11, wordCount := 12 } ∧
    planBank 6 6 = .ok { scanMode := .bank6, baseChannel := 6, endChannel := 6, wordCount := 1 } ∧
    planBank 11 11 = .ok { scanMode := .bank6, baseChannel := 6, endChannel := 11, wordCount := 6 } := by decide

theorem witness_PlanInvariants :
    planBank 3 7 = .ok { scanMode := .bank0, baseChannel := 0, endChannel := 7, wordCount := 8 } ∧
    planSingle 3 = .ok { scanMode := .only, baseChannel := 3, endChannel := 3, wordCount := 1 } := by decide

theorem witness_PlanSingleAndCountValues :
    planSingle (-1) = .error (.range .chRange) ∧ planSingle 12 = .error (.range .chRange) ∧
    planSingle 0 = .ok { scanMode := .only, baseChannel := 0, endChannel := 0, wordCount := 1 } ∧
    planSingle 11 = .ok { scanMode := .only, baseChannel := 11, endChannel := 11, wordCount := 1 } ∧
    planCount (-1) 3 = .error (.range .chRange) ∧ planCount 11 0 = .error (.range .countLow) ∧
    planCount 0 13 = .error (.range .countOver) ∧ planCount 11 2 = .error (.range .countOver) ∧
    planCount 0 12 = .ok { scanMode := .bank0, baseChannel := 0, endChannel := 11, wordCount := 12 } ∧
    planCount 11 1 = .ok { scanMode := .bank6, baseChannel := 6, endChannel := 11, wordCount := 6 } := by decide

/-- A covering plan, and lengths on both sides of it. -/
theorem witness_DecodeIsExact :
    planBank 8 9 = .ok { scanMode := .bank6, baseChannel := 6, endChannel := 9, wordCount := 4 } ∧
    6 ≤ 8 ∧ 8 - 6 + 2 = 4 ∧
    decodeResult [1, 0, 2, 0, 3, 0, 4, 0] { scanMode := .bank6, baseChannel := 6, endChannel := 9, wordCount := 4 } 8 2 =
      .ok [0x300, 0x400] ∧
    decodeResult [] { scanMode := .bank6, baseChannel := 6, endChannel := 9, wordCount := 4 } 8 2 =
      .error (.protocol .lenMismatch) ∧
    planCount 8 2 = .ok { scanMode := .bank6, baseChannel := 6, endChannel := 9, wordCount := 4 } ∧
    planSingle 8 = .ok { scanMode := .only, baseChannel := 8, endChannel := 8, wordCount := 1 } := by decide

theorem witness_StatusPacking : State.reset.rsp = none ∧
    ({ State.reset with rsp := some (errorResponse (.bus .timeout) 1) } : State).status = 0x0E := by decide

theorem witness_reset_inv : State.reset.Inv := by
  constructor <;> decide

theorem witness_reading_inv : (reading [.ok [0xF0]]).Inv := by
  constructor <;> decide

theorem witness_waiting_inv : waiting.Inv := by
  constructor <;> decide

/-- READ_SINGLE 3, SE ended by an answer of one byte. -/
def ended : State :=
  { reading [] with
    phase := .idle, attempts := 1, rsp := some (errorResponse (.protocol .lenMismatch) 1),
    hist := [.accept .readSingle (.readSingle 3 .singleEnded), .attempt 0x35 [0x67] 2 (.ok [0xF0]),
      .respond (errorResponse (.protocol .lenMismatch) 1)] }

theorem witness_ended_inv : ended.Inv := by
  constructor <;> decide

theorem witness_OnlyListedStatusValues : ended.Inv ∧ ended.status = 0x83 ∧ State.reset.status = 0x00 :=
  ⟨witness_ended_inv, by decide, by decide⟩

theorem witness_NoStepFaults : (reading [.ok [0xF0]]).Inv ∧ ended.Inv := ⟨witness_reading_inv, witness_ended_inv⟩

/-- Idle, attempting and waiting states of the invariant. -/
theorem witness_InvariantKept : State.reset.Inv ∧ (reading [.ok [0xF0]]).Inv ∧ waiting.Inv :=
  ⟨witness_reset_inv, witness_reading_inv, witness_waiting_inv⟩

theorem witness_SetupAccepted : State.reset.phase = .idle := by decide

/-- Every clause at both ends of its range. -/
theorem witness_ReadsAccepted : State.reset.phase = .idle ∧
    (nextOf (exec (.readSingle 0 .differential) State.reset)).map State.wbuf = some [0x60] ∧
    (nextOf (exec (.readSingle 11 .differential) State.reset)).map State.wbuf = some [0x76] ∧
    (nextOf (exec (.readRange 0 11 .singleEnded) State.reset)).map State.rlen = some 24 ∧
    (nextOf (exec (.readRange 11 11 .singleEnded) State.reset)).map State.rlen = some 12 ∧
    (nextOf (exec (.readMultiple 0 1 .singleEnded) State.reset)).map State.rlen = some 2 ∧
    (nextOf (exec (.readMultiple 0 12 .singleEnded) State.reset)).map State.rlen = some 24 := by decide

/-- Bytes 0 and 255, a write-only and a read-only transfer. -/
theorem witness_XferAccepted : State.reset.phase = .idle ∧ (∀ x ∈ [(0 : Int), 255], 0 ≤ x ∧ x ≤ 255) ∧
    (nextOf (exec (.xfer [0, 255] 0) State.reset)).map State.wbuf = some [0x00, 0xFF] ∧
    (nextOf (exec (.xfer [] 1) State.reset)).map State.rlen = some 1 := by decide

/-- Every clause just outside the range it checks. -/
theorem witness_RangeErrorsEndAtAccept : State.reset.phase = .idle ∧
    (nextOf (exec (.readSingle (-1) .singleEnded) State.reset)).map State.status = some 0x11 ∧
    (nextOf (exec (.readSingle 12 .singleEnded) State.reset)).map State.status = some 0x11 ∧
    (nextOf (exec (.readRange (-1) 12 .singleEnded) State.reset)).map State.status = some 0x11 ∧
    (nextOf (exec (.readRange 0 12 .singleEnded) State.reset)).map State.status = some 0x21 ∧
    (nextOf (exec (.readRange 1 0 .singleEnded) State.reset)).map State.status = some 0x31 ∧
    (nextOf (exec (.readMultiple 12 0 .singleEnded) State.reset)).map State.status = some 0x11 ∧
    (nextOf (exec (.readMultiple 0 0 .singleEnded) State.reset)).map State.status = some 0x41 ∧
    (nextOf (exec (.readMultiple 0 13 .singleEnded) State.reset)).map State.status = some 0x51 ∧
    (nextOf (exec (.xfer [256] (-1)) State.reset)).map State.status = some 0x61 ∧
    (nextOf (exec (.xfer [255] (-1)) State.reset)).map State.status = some 0x71 := by decide

theorem witness_LatchedRegistersStay : (reading [.fault .nack]).quiet ∧ (reading [.fault .nack]).phase ≠ .idle ∧
    (nextOf (step (reading [.fault .nack]))).isSome = true := by
  unfold State.quiet
  decide

/-- A busy codec with a request presented. -/
theorem witness_BusyHoldsRequests : ({ waiting with reqPort := [setupItem] } : State).quiet ∧
    ({ waiting with reqPort := [setupItem] } : State).phase ≠ .idle ∧
    (nextOf (step { waiting with reqPort := [setupItem] })).map State.reqPort = some [setupItem] := by
  unfold State.quiet
  decide

theorem witness_RequestFrame :
    (nextOf (exec (Request.instr (.readSingle 12 .singleEnded)) State.reset)).isSome = true ∧
    prepare State.reset.codes (.readSingle 12 .singleEnded) = .error (.range .chRange) := by decide

/-- The last attempt that leaves a retry, and a write list without setup bytes. -/
theorem witness_FaultWithRetryLeftBacksOff : (reading [.fault .nack] 1).quiet ∧
    (reading [.fault .nack] 1).phase = .attempt ∧ (reading [.fault .nack] 1).busPort = .fault .nack :: [] ∧
    (reading [.fault .nack] 1).attempts + 1 ≤ (reading [.fault .nack] 1).maxRetries ∧
    (∀ b ∈ (reading [.fault .nack] 1).wbuf, isSetupByte b = false) := by
  unfold State.quiet
  decide

theorem witness_LastFaultSurfaces : (settingUp [.fault .timeout]).quiet ∧
    (settingUp [.fault .timeout]).phase = .attempt ∧
    (settingUp [.fault .timeout]).busPort = .fault .timeout :: [] ∧
    (settingUp [.fault .timeout]).attempts = (settingUp [.fault .timeout]).maxRetries := by
  unfold State.quiet
  decide

theorem witness_BackoffWaitsThenRetries : waiting.quiet ∧ waiting.phase = .backoff := by
  unfold State.quiet
  decide

theorem witness_UnansweredAttemptHolds : (reading []).quiet ∧ (reading []).phase = .attempt ∧ (reading []).busPort = [] := by
  unfold State.quiet
  decide

theorem witness_OkOutcomeCompletes : (reading [.ok [0xF4, 0xD2]]).quiet ∧
    (reading [.ok [0xF4, 0xD2]]).phase = .attempt ∧
    finish (reading []).req (reading []).plan [0xF4, 0xD2] = .ok (.payload (.sample 1234)) ∧
    finish (settingUp []).req (settingUp []).plan [] = .ok (.payload .empty) := by
  unfold State.quiet
  decide

theorem witness_SetupResult : (presented setupItem [.ok []]).ready setupItem [] ∧
    decodeRequest (presented setupItem [.ok []]).codes setupItem = .ok (.setup .ref0 .internal .unipolar .noAction) ∧
    (presented setupItem [.ok []]).busPort = .ok [] :: [] := by
  unfold State.ready State.quiet
  decide

theorem witness_ReadSingleResult : (presented singleItem [.ok [0xF4, 0xD2]]).ready singleItem [] ∧
    decodeRequest State.reset.codes singleItem = .ok (.readSingle 3 .singleEnded) := by
  unfold State.ready State.quiet
  decide

theorem witness_ReadRangeResult :
    (presented rangeItem [.ok [0x01, 0x00, 0x02, 0x00, 0x03, 0x00, 0x04, 0x00]]).ready rangeItem [] ∧
    decodeRequest State.reset.codes rangeItem = .ok (.readRange 6 9 .singleEnded) ∧
    planBank 6 9 = .ok { scanMode := .bank6, baseChannel := 6, endChannel := 9, wordCount := 4 } := by
  unfold State.ready State.quiet
  decide

theorem witness_ReadMultipleResult :
    (presented { PortWord.blank 3 with arg0 := 10, arg1 := 2, mode := 1 }
      [.ok [0x0F, 0xFF, 0x0E, 0x00, 0x00, 0x01, 0x08, 0x00, 0x0A, 0xBC, 0x01, 0x23]]).ready
      { PortWord.blank 3 with arg0 := 10, arg1 := 2, mode := 1 } [] ∧
    planCount 10 2 = .ok { scanMode := .bank6, baseChannel := 6, endChannel := 11, wordCount := 6 } ∧
    (prepare Codes.standard (.readMultiple 10 2 .singleEnded)).toOption =
      some { plan := some { scanMode := .bank6, baseChannel := 6, endChannel := 11, wordCount := 6 },
             wbuf := [0x57], rlen := 12 } ∧
    finish (.readMultiple 10 2 .singleEnded)
      (some { scanMode := .bank6, baseChannel := 6, endChannel := 11, wordCount := 6 })
      [0x0F, 0xFF, 0x0E, 0x00, 0x00, 0x01, 0x08, 0x00, 0x0A, 0xBC, 0x01, 0x23] =
      .ok (.payload (.seq [0xABC, 0x123])) := by
  unfold State.ready State.quiet
  decide

/-- A write-only and a read-only transfer (2.6.15, 2.6.16). -/
theorem witness_XferResult :
    (presented { PortWord.blank 4 with wlist := [0x82] } [.ok [7]]).ready
      { PortWord.blank 4 with wlist := [0x82] } [] ∧
    decodeRequest State.reset.codes { PortWord.blank 4 with wlist := [0x82] } = .ok (.xfer [0x82] 0) ∧
    (∀ x ∈ [(0x82 : Int)], 0 ≤ x ∧ x ≤ 255) ∧
    (presented { PortWord.blank 4 with arg1 := 2 } [.ok [0xF0, 0x05]]).ready
      { PortWord.blank 4 with arg1 := 2 } [] ∧
    decodeRequest State.reset.codes { PortWord.blank 4 with arg1 := 2 } = .ok (.xfer [] 2) := by
  unfold State.ready State.quiet
  decide

theorem witness_WrongLengthIsProtocolError : (reading [.ok [0xF0]]).Inv ∧ (reading [.ok [0xF0]]).quiet ∧
    (reading [.ok [0xF0]]).rlen ≠ 0 ∧ [(0xF0 : Byte)].length ≠ (reading [.ok [0xF0]]).rlen :=
  ⟨witness_reading_inv, by unfold State.quiet; decide, by decide, by decide⟩

/-- The first and the second attempt of one request, answered alike. -/
theorem witness_ResultIndependentOfAttempts : (reading [.ok [0xF4, 0xD2]]).quiet ∧
    ({ waiting with phase := .attempt, busPort := [.ok [0xF4, 0xD2]] } : State).quiet ∧
    (reading []).req = waiting.req ∧ (reading []).plan = waiting.plan ∧ (reading []).rlen = waiting.rlen ∧
    (nextOf (step (reading [.ok [0xF4, 0xD2]]))).isSome = true := by
  unfold State.quiet
  decide

/-- Every ending: the answer on the second attempt, the fault that surfaces, and EXEC's own RangeError. -/
theorem witness_SequencerAgreesWithExec :
    (presented singleItem [.fault .nack, .ok [0xF4, 0xD2]] 1).ready singleItem [] ∧
    decodeRequest State.reset.codes singleItem = .ok (Request.instr (.readSingle 3 .singleEnded)) ∧
    prepare State.reset.codes (.readSingle 3 .singleEnded) =
      .ok { plan := some { scanMode := .only, baseChannel := 3, endChannel := 3, wordCount := 1 },
            wbuf := [0x67], rlen := 2 } ∧
    (execTransaction 0x35 1 5 [0x67] 2 [.fault .nack, .ok [0xF4, 0xD2]]).result = .bytes [0xF4, 0xD2] ∧
    (execTransaction 0x35 1 5 [0x67] 2 [.fault .nack, .fault .timeout]).result = .error (.bus .timeout) ∧
    (presented { PortWord.blank 4 with wlist := [256] } []).ready
      { PortWord.blank 4 with wlist := [256] } [] ∧
    prepare State.reset.codes (.xfer [256] 0) = .error (.range .byteDomain) := by
  unfold State.ready State.quiet
  decide

/-- As many outcomes as the budget allows attempts, and none to spare. -/
theorem witness_OperationsEndWhenTheBusAnswers :
    (presented singleItem [.fault .nack, .fault .timeout] 1).ready singleItem [] ∧
    decodeRequest State.reset.codes singleItem = .ok (Request.instr (.readSingle 3 .singleEnded)) ∧
    (presented singleItem [.fault .nack, .fault .timeout] 1).maxRetries + 1 ≤
      (presented singleItem [.fault .nack, .fault .timeout] 1).busPort.length := by
  unfold State.ready State.quiet
  decide

theorem witness_ConfigByteSelectsInItsClaim :
    State.reset.openClaim.claim = some { selected := none, words := [], pending := [], got := [] } ∧ State.reset.claim = none := by decide

theorem witness_ClaimIsMadeOfWireInstructions : State.reset.codes.wf = true ∧
    runInstrs ([0x82, 0x61].map (decodeCommand State.reset.codes)) State.reset = .next (State.reset.deliver [0x82, 0x61]) :=
  ⟨by decide, by rfl⟩

/-- An asserted reset in IDLE, and in an operation that writes a setup byte or none. -/
theorem witness_CodecResetStep : ({ State.reset with resetReq := true } : State).resetReq = true ∧
    State.reset.phase = .idle ∧ ({ settingUp [] with resetReq := true } : State).phase ≠ .idle ∧
    (∀ b ∈ ({ waiting with resetReq := true } : State).wbuf, isSetupByte b = false) := by decide

theorem witness_PowerCycleStep : ({ State.reset with deviceCycled := true } : State).resetReq = false ∧
    ({ State.reset with deviceCycled := true } : State).deviceCycled = true := by decide

theorem witness_StepRunsTheDecodedInstruction : (presented rangeItem []).ready rangeItem [] ∧
    decodeRequest (presented rangeItem []).codes rangeItem = .ok (.readRange 6 9 .singleEnded) ∧
    (State.reset.withFetchWord 8 0x82).phase = .attempt ∧
    (State.reset.withFetchWord 8 0x82).claim =
      some { selected := none, words := [], pending := [.command 0x82], got := [] } := by
  unfold State.ready State.quiet
  decide

theorem witness_ConstantsNeverChange : (nextOf (step (reading [.fault .nack]))).isSome = true := by decide

theorem witness_HistoryIsAppended :
    (nextOf (step (reading [.fault .nack]))).isSome = true ∧ (reading [.fault .nack]).resetReq = false := by decide

/-- Completion, and an attempt that goes on. -/
theorem witness_CompletionIsSignalled : (reading [.ok [0xF0]]).Inv ∧ (reading [.ok [0xF0]]).quiet ∧
    (reading [.ok [0xF0]]).busy = true ∧ (nextOf (step (reading [.ok [0xF0]]))).map State.busy = some false ∧
    (nextOf (step (reading []))).map State.busy = some true :=
  ⟨witness_reading_inv, by unfold State.quiet; decide, by decide, by decide, by decide⟩

theorem witness_CodecIgnoresDeviceAndHistory :
    ({ reading [.ok [0xF4, 0xD2]] with devSetup := some 0x82, draws := 3 } : State).erase =
      ({ reading [.ok [0xF4, 0xD2]] with hist := [] } : State).erase ∧
    (nextOf (step (reading [.ok [0xF4, 0xD2]]))).isSome = true := by decide

theorem witness_SetupByteIsRetained :
    (nextOf (exec (.setupByte 0 0 0 1 1) State.reset.openClaim)).map State.devSetup = some (some 0x83) ∧
    State.reset.claim = none := by decide

/-- A setup in flight, and a read in flight of the invariant. -/
theorem witness_DeviceChangesOnlyBySetupBytes : (settingUp [.ok []]).quiet ∧ (settingUp [.ok []]).phase ≠ .idle ∧
    (nextOf (step (settingUp [.ok []]))).isSome = true ∧ (∀ b ∈ waiting.wbuf, isSetupByte b = false) ∧
    (reading [.ok [0xF0]]).quiet ∧ (reading [.ok [0xF0]]).Inv ∧
    (∃ ch mode, (reading [.ok [0xF0]]).req = .readSingle ch mode) ∧
    (nextOf (step (reading [.ok [0xF0]]))).isSome = true :=
  ⟨by unfold State.quiet; decide, by decide, by decide, by decide, by unfold State.quiet; decide, witness_reading_inv,
    ⟨3, .singleEnded, rfl⟩, by decide⟩

/-- Idle and backing off. -/
theorem witness_OnlyAnAttemptTouchesTheDevice : (presented setupItem []).quiet ∧
    (presented setupItem []).phase ≠ .attempt ∧ (nextOf (step (presented setupItem []))).isSome = true ∧
    waiting.quiet ∧ waiting.phase ≠ .attempt ∧ (nextOf (step waiting)).isSome = true := by
  unfold State.quiet
  decide

/-- P1 request 2: one command byte, one result word and the completion are the attempt's one step. -/
theorem witness_AttemptIsItsClaimItemByItem : (reading [.ok [0xF4, 0xD2]]).codes.wf = true ∧
    (reading [.ok [0xF4, 0xD2]]).quiet ∧ (reading [.ok [0xF4, 0xD2]]).phase = .attempt ∧
    claimItems [0x67] [0xF4, 0xD2] = [.command 0x67, .word 0xF4 0xD2] := by
  unfold State.quiet
  decide

/-- The least WBUF_MAX, which no parameters may be below, an XFER that fits it and one that does not. -/
theorem witness_RealisationTakesWhatFits :
    ({ argW := 8, wbufMax := 1, tick := 1 } : RealParams).wf = true ∧
    ({ argW := 8, wbufMax := 0, tick := 1 } : RealParams).wf = false ∧
    realisationTakes { argW := 8, wbufMax := 1, tick := 1 } (.xfer [0x82] 0) = true ∧
    realisationTakes { argW := 8, wbufMax := 1, tick := 1 } (.xfer [0x82, 0x61] 2) = false ∧
    (prepare Codes.standard (.xfer [0x82, 0x61] 2)).toOption =
      some { plan := none, wbuf := [0x82, 0x61], rlen := 2 } := by decide

/-- P2 request 3: two waits of RETRY_DELAY 10, with a TICK of 3. -/
theorem test_waitingTime :
    waitingTime 3 (execTransaction 0x35 2 10 [0xFE] 0 [.fault .nack, .fault .timeout, .fault .arbLost]).events = 60 := by
  decide

end Sys2Proof.Machine
end

section
/-! PROOFS. The scope of the model (spec/00_scope.md): what no step writes, and which requests a realisation takes. -/

namespace Sys2Proof.Machine

/-! ## The instance constants -/

/-- R21, R22, R6: what an instance is bound to: `ADDR`, `MAX_RETRIES`, `RETRY_DELAY` and the field-code tables. -/
def State.constants (s : State) : Bits7 × Nat × Nat × Codes := (s.addr, s.maxRetries, s.retryDelay, s.codes)

theorem State.constants_eq_iff {s t : State} :
    t.constants = s.constants ↔
      t.addr = s.addr ∧ t.maxRetries = s.maxRetries ∧ t.retryDelay = s.retryDelay ∧ t.codes = s.codes := by
  simp [State.constants]

@[simp] theorem State.codecReset_constants (s : State) : s.codecReset.constants = s.constants := by
  simp [State.constants]

/-- A completion that answers a state ends the operation there and does nothing else. -/
theorem State.complete_next {req : Request} {plan : Option ScanPlan} {bytes : List Byte} {s t : State}
    (h : s.complete req plan bytes = .next t) : ∃ r, t = s.endOperation r := by
  unfold State.complete at h
  split at h <;> cases h
  exact ⟨_, rfl⟩

theorem accept_constants {q : Request} {s t : State} (hi : s.phase = .idle) (h : accept q s = .next t) :
    t.constants = s.constants := by
  rcases accept_cases hi q with ⟨k, -, -, ha⟩ | ⟨-, ha⟩ | ⟨pr, -, -, ha⟩ <;>
    rw [ha] at h <;> cases h <;> rfl

theorem attemptStep_constants {s t : State} (hp : s.phase = .attempt) (h : attemptStep s = .next t) :
    t.constants = s.constants := by
  have hne : s.phase ≠ .idle := by simp [hp]
  cases hb : s.busPort with
  | nil => rw [attemptStep_wait hb] at h; cases h; rfl
  | cons out more =>
    cases out with
    | ok bytes => rw [attemptStep_ok hne hb] at h; split at h <;> cases h; rfl
    | fault k => rw [attemptStep_fault hne hb] at h; split at h <;> cases h <;> rfl

/-- R215: the constants are what every step keeps, a codec reset and a device power cycle included (R240, R243). -/
theorem step_constants {s t : State} (h : step s = .next t) : t.constants = s.constants := by
  rcases step_cases h with ⟨-, rfl⟩ | ⟨-, -, rfl⟩ | ⟨-, hp, ha⟩ |
    ⟨-, -, c, -, ⟨d, c', rfl⟩ | hc⟩ | ⟨-, -, hb⟩ | ⟨-, -, -, rfl⟩ | ⟨-, hp, item, rest, q, -, -, ha⟩
  · exact s.codecReset_constants
  · rfl
  · exact attemptStep_constants hp ha
  · rfl
  · obtain ⟨r, rfl⟩ := State.complete_next hc
    rfl
  · cases hb
    rfl
  · rfl
  · exact accept_constants (s := s.popRequest) hp ha

/-- Settles O52, by the cases of a step. -/
theorem constantsNeverChange : Obligations.ConstantsNeverChange := by
  intro s t h
  exact State.constants_eq_iff.1 (step_constants h)

/-! ## What a realisation takes -/

/-- R6: a write buffer holds at least one byte. -/
theorem RealParams.one_le_wbufMax {r : RealParams} (h : r.wf = true) : 1 ≤ r.wbufMax := by
  simp only [RealParams.wf, Bool.and_eq_true, decide_eq_true_eq] at h
  exact h.1

/-- R162, R165, R168: a request for samples writes its config byte alone. -/
theorem Request.writeLength_of_window {q : Request} {x : Nat × Nat} (h : q.window = some x) : q.writeLength = 1 := by
  cases q with
  | setup | xfer => cases h
  | readSingle | readRange | readMultiple => rfl

/-- R27: `WBUF` is as long as the request says. -/
theorem prepare_wbuf_length {c : Codes} {q : Request} {pr : Prepared} (h : prepare c q = .ok pr) :
    pr.wbuf.length = q.writeLength := by
  rcases prepare_ok_cases h with ⟨start, count, p, hq, -, -, -, -, b, hb, -⟩ |
    ⟨ref, clk, pol, rst, rfl, rfl⟩ | ⟨w, n, rfl, -, -, rfl⟩
  · rw [hb, Request.writeLength_of_window hq, List.length_singleton]
  · rfl
  · exact List.length_map _

theorem realisationTakes_eq_false {r : RealParams} {q : Request} :
    realisationTakes r q = false ↔ r.wbufMax < q.writeLength := by
  simp [realisationTakes]

/-- Only an XFER writes more bytes than a buffer of at least one byte holds. -/
theorem Request.lt_writeLength_iff {k : Nat} (hk : 1 ≤ k) (q : Request) :
    k < q.writeLength ↔ ∃ w n, q = .xfer w n ∧ k < w.length := by
  cases q with
  | setup | readSingle | readRange | readMultiple => simp [Request.writeLength]; omega
  | xfer w n => simp [Request.writeLength]

/-- Settles O60: the length is Prepare's, and WBUF_MAX is at least the one byte every other request writes. -/
theorem realisationTakesWhatFits : Obligations.RealisationTakesWhatFits := by
  intro r c q pr hr hp
  have hk : 1 ≤ r.wbufMax := RealParams.one_le_wbufMax hr
  exact ⟨prepare_wbuf_length hp, realisationTakes_eq_false.trans (q.lt_writeLength_iff hk)⟩

end Sys2Proof.Machine
end

section
/-! PROOFS. The encodings (spec/30_encoding.md): what bit 7 of a command byte decides. -/

namespace Sys2Proof

/-! ## The two command formats -/

/-- R73: with bit 7 set, a byte is a setup byte with the fields of that layout. -/
theorem decodeCommand_of_bit7_set {b : Byte} (c : Codes) (h : b.getLsbD 7 = true) :
    decodeCommand c b = .setupByte (b.extractLsb' 4 3) (b.extractLsb' 3 1) (b.extractLsb' 2 1) (b.extractLsb' 1 1)
      (b.extractLsb' 0 1) :=
  if_pos h

/-- R78: the config byte instruction of a scan mode, with its CS and MODE fields. -/
def configInstr (cs : BitVec 4) (mode : BitVec 1) : ScanMode → Instr
  | .bank0 => .configBank0 cs mode
  | .scanX => .configScanX cs mode
  | .bank6 => .configBank6 cs mode
  | .only => .configOnly cs mode

/-- R78: with bit 7 clear, a byte is the config byte of the scan mode in bits 6:5. -/
theorem decodeCommand_of_bit7_clear {b : Byte} (c : Codes) (h : b.getLsbD 7 = false) :
    decodeCommand c b = configInstr (b.extractLsb' 1 4) (b.extractLsb' 0 1) (c.scanOf (b.extractLsb' 5 2)) := by
  have hb : ¬ isSetupByte b = true := Bool.eq_false_iff.mp h
  rw [decodeCommand, if_neg hb]
  cases c.scanOf (b.extractLsb' 5 2) <;> rfl

/-- An instruction is a config byte's exactly when it is one of the four. -/
theorem exists_eq_configInstr_iff {i : Instr} {cs : BitVec 4} {mode : BitVec 1} :
    (∃ scan, i = configInstr cs mode scan) ↔
      i = .configBank0 cs mode ∨ i = .configScanX cs mode ∨ i = .configBank6 cs mode ∨ i = .configOnly cs mode := by
  constructor
  · rintro ⟨scan, rfl⟩
    cases scan <;> simp [configInstr]
  · rintro (h | h | h | h)
    · exact ⟨.bank0, h⟩
    · exact ⟨.scanX, h⟩
    · exact ⟨.bank6, h⟩
    · exact ⟨.only, h⟩

theorem setupByte_ne_configInstr (ref : BitVec 3) (clk pol rst unused : BitVec 1) (cs : BitVec 4) (mode : BitVec 1)
    (scan : ScanMode) : Instr.setupByte ref clk pol rst unused ≠ configInstr cs mode scan := by
  cases scan <;> simp [configInstr]

/-- R72: bit 7 is set exactly in the bytes that decode to a setup byte. -/
theorem bit7_set_iff_decodeCommand_setupByte (c : Codes) (b : Byte) :
    b.getLsbD 7 = true ↔ ∃ ref clk pol rst unused, decodeCommand c b = .setupByte ref clk pol rst unused := by
  refine ⟨fun h => ⟨_, _, _, _, _, decodeCommand_of_bit7_set c h⟩, ?_⟩
  rintro ⟨ref, clk, pol, rst, unused, hs⟩
  by_contra h
  have hc := decodeCommand_of_bit7_clear c (Bool.eq_false_of_not_eq_true h)
  exact setupByte_ne_configInstr _ _ _ _ _ _ _ _ (hs.symm.trans hc)

/-- R72: bit 7 is clear exactly in the bytes that decode to a config byte. -/
theorem bit7_clear_iff_decodeCommand_configInstr (c : Codes) (b : Byte) :
    b.getLsbD 7 = false ↔ ∃ cs mode scan, decodeCommand c b = configInstr cs mode scan := by
  refine ⟨fun h => ⟨_, _, _, decodeCommand_of_bit7_clear c h⟩, ?_⟩
  rintro ⟨cs, mode, scan, hc⟩
  by_contra h
  have hs := decodeCommand_of_bit7_set c (Bool.eq_true_of_not_eq_false h)
  exact setupByte_ne_configInstr _ _ _ _ _ _ _ _ (hs.symm.trans hc)

/-- Settles O3: each value of bit 7 fixes the format, and no setup byte is a config byte. -/
theorem bitSevenTellsTheFormat : Obligations.BitSevenTellsTheFormat := by
  intro c b
  refine ⟨bit7_set_iff_decodeCommand_setupByte c b, ?_⟩
  simp only [← exists_eq_configInstr_iff]
  exact bit7_clear_iff_decodeCommand_configInstr c b

end Sys2Proof
end

section
/-! PROOFS. The SetupEncoder (spec/40_setup_encoder.md): the setup byte as a number, its injectivity and its range. -/

namespace Sys2Proof

/-! ## The setup byte layout -/

/-- R73: the layout as a number, marker and fields at their offsets. -/
theorem packSetup_toNat (ref : BitVec 3) (clk pol rst unused : BitVec 1) :
    (packSetup ref clk pol rst unused).toNat =
      0x80 ||| (ref.toNat <<< 4) ||| (clk.toNat <<< 3) ||| (pol.toNat <<< 2) ||| (rst.toNat <<< 1) ||| unused.toNat := by
  simp only [packSetup, BitVec.toNat_append, Nat.shiftLeft_or_distrib, ← Nat.shiftLeft_add]
  rfl

/-- Fields that stand side by side occupy disjoint bits. -/
theorem append_eq_append_iff {m n : Nat} {x x' : BitVec m} {y y' : BitVec n} :
    x ++ y = x' ++ y' ↔ x = x' ∧ y = y' := by
  constructor
  · intro h
    have hx : x = x' := by simpa [BitVec.extractLsb'_append_eq_left] using congrArg (BitVec.extractLsb' n m) h
    subst hx
    exact ⟨rfl, BitVec.append_right_inj x |>.1 h⟩
  · rintro ⟨rfl, rfl⟩
    rfl

/-- R73: the fields of a setup byte are read back from it. -/
theorem packSetup_inj {ref ref' : BitVec 3} {clk clk' pol pol' rst rst' unused unused' : BitVec 1}
    (h : packSetup ref clk pol rst unused = packSetup ref' clk' pol' rst' unused') :
    ref = ref' ∧ clk = clk' ∧ pol = pol' ∧ rst = rst' ∧ unused = unused' := by
  obtain ⟨h, hunused⟩ := append_eq_append_iff.1 h
  obtain ⟨h, hrst⟩ := append_eq_append_iff.1 h
  obtain ⟨h, hpol⟩ := append_eq_append_iff.1 h
  obtain ⟨h, hclk⟩ := append_eq_append_iff.1 h
  obtain ⟨-, href⟩ := append_eq_append_iff.1 h
  exact ⟨href, hclk, hpol, hrst, hunused⟩

theorem le_toNat_of_isSetupByte {b : Byte} (h : isSetupByte b = true) : 0x80 ≤ b.toNat :=
  Nat.ge_two_pow_of_testBit (i := 7) h

theorem toNat_even_of_bit0_clear {b : Byte} (h : b.getLsbD 0 = false) : b.toNat % 2 = 0 := by
  have h0 : b.toNat.testBit 0 = false := h
  simpa [Nat.testBit_zero] using h0

@[simp] theorem packSetup_bit0 (ref : BitVec 3) (clk pol rst unused : BitVec 1) :
    (packSetup ref clk pol rst unused).getLsbD 0 = unused.getLsbD 0 := by
  rw [packSetup, BitVec.getLsbD_append]; simp

/-! ## The setup byte's enumerations, listed -/

/-- R75. -/
def RefSel.all : List RefSel := [.ref0, .ref1, .ref2, .ref3, .ref4, .ref5]

/-- R77. -/
def Clock.all : List Clock := [.internal, .external]

/-- R77. -/
def Polarity.all : List Polarity := [.unipolar, .bipolar]

/-- R77. -/
def ResetSel.all : List ResetSel := [.reset, .noAction]

theorem RefSel.mem_all (ref : RefSel) : ref ∈ RefSel.all := by cases ref <;> decide
theorem Clock.mem_all (clk : Clock) : clk ∈ Clock.all := by cases clk <;> decide
theorem Polarity.mem_all (pol : Polarity) : pol ∈ Polarity.all := by cases pol <;> decide
theorem ResetSel.mem_all (rst : ResetSel) : rst ∈ ResetSel.all := by cases rst <;> decide

/-- A code is injective when the codes of a list of all its arguments are distinct. -/
theorem injective_of_nodup_map {α β : Type} {f : α → β} {l : List α} (hl : ∀ a, a ∈ l) (h : (l.map f).Nodup) :
    Function.Injective f :=
  fun a b hab => List.inj_on_of_nodup_map h (hl a) (hl b) hab

/-- The codes of a list of all arguments are all the codes. -/
theorem mem_map_iff_exists {α β : Type} {l : List α} (hl : ∀ a, a ∈ l) (f : α → β) (b : β) :
    b ∈ l.map f ↔ ∃ a, f a = b := by
  simp [hl]

/-! ## The field codes -/

/-- R6: what an injective table says of the four fields of a setup byte. -/
theorem Codes.setup_codes_distinct {c : Codes} (h : c.wf = true) :
    [c.ref0, c.ref1, c.ref2, c.ref3, c.ref4, c.ref5].Nodup ∧ c.clkInternal ≠ c.clkExternal ∧
      c.polUnipolar ≠ c.polBipolar ∧ c.rstReset ≠ c.rstNoAction := by
  simp only [Codes.wf, Bool.and_eq_true, decide_eq_true_eq] at h
  obtain ⟨⟨⟨⟨⟨href, hclk⟩, hpol⟩, hrst⟩, -⟩, -⟩ := h
  exact ⟨href, hclk, hpol, hrst⟩

section
variable {c : Codes} (h : c.wf = true)
include h

theorem Codes.refCode_injective : Function.Injective c.refCode := by
  obtain ⟨href, -, -, -⟩ := Codes.setup_codes_distinct h
  exact injective_of_nodup_map RefSel.mem_all href

theorem Codes.clkCode_injective : Function.Injective c.clkCode := by
  obtain ⟨-, hclk, -, -⟩ := Codes.setup_codes_distinct h
  exact injective_of_nodup_map Clock.mem_all (by simpa [Clock.all, Codes.clkCode] using hclk)

theorem Codes.polCode_injective : Function.Injective c.polCode := by
  obtain ⟨-, -, hpol, -⟩ := Codes.setup_codes_distinct h
  exact injective_of_nodup_map Polarity.mem_all (by simpa [Polarity.all, Codes.polCode] using hpol)

theorem Codes.rstCode_injective : Function.Injective c.rstCode := by
  obtain ⟨-, -, -, hrst⟩ := Codes.setup_codes_distinct h
  exact injective_of_nodup_map ResetSel.mem_all (by simpa [ResetSel.all, Codes.rstCode] using hrst)

end

/-- R76: the values of the default REF codes. -/
theorem mem_standard_refCode (r : Nat) :
    r ∈ [0, 2, 4, 5, 6, 7] ↔ ∃ ref, (Codes.standard.refCode ref).toNat = r :=
  mem_map_iff_exists RefSel.mem_all (fun ref => (Codes.standard.refCode ref).toNat) r

/-- R77: a default CLK code is 0 or 1, and both are used. -/
theorem mem_standard_clkCode (k : Nat) : k ∈ [0, 1] ↔ ∃ clk, (Codes.standard.clkCode clk).toNat = k :=
  mem_map_iff_exists Clock.mem_all (fun clk => (Codes.standard.clkCode clk).toNat) k

/-- R77. -/
theorem mem_standard_polCode (p : Nat) : p ∈ [0, 1] ↔ ∃ pol, (Codes.standard.polCode pol).toNat = p :=
  mem_map_iff_exists Polarity.mem_all (fun pol => (Codes.standard.polCode pol).toNat) p

/-- R77. -/
theorem mem_standard_rstCode (t : Nat) : t ∈ [0, 1] ↔ ∃ rst, (Codes.standard.rstCode rst).toNat = t :=
  mem_map_iff_exists ResetSel.mem_all (fun rst => (Codes.standard.rstCode rst).toNat) t

namespace Machine

/-! ## ENC_SETUP -/

/-- R100: the shift-and-or formula. -/
theorem encSetup_toNat (c : Codes) (ref : RefSel) (clk : Clock) (pol : Polarity) (rst : ResetSel) :
    (encSetup c ref clk pol rst).toNat =
      0x80 ||| ((c.refCode ref).toNat <<< 4) ||| ((c.clkCode clk).toNat <<< 3) ||| ((c.polCode pol).toNat <<< 2)
        ||| ((c.rstCode rst).toNat <<< 1) :=
  (packSetup_toNat ..).trans (Nat.or_zero _)

/-- Settles O7: ENC_SETUP is the layout with bit 0 clear. -/
theorem encSetupFormula : Obligations.EncSetupFormula :=
  ⟨fun c ref clk pol rst => ⟨rfl, encSetup_toNat c ref clk pol rst⟩, by decide⟩

/-- Settles O8: equal bytes have equal fields, and each field's code is injective. -/
theorem encSetupInjective : Obligations.EncSetupInjective := by
  intro c hc ref ref' clk clk' pol pol' rst rst' h
  obtain ⟨href, hclk, hpol, hrst, -⟩ := packSetup_inj h
  exact ⟨Codes.refCode_injective hc href, Codes.clkCode_injective hc hclk, Codes.polCode_injective hc hpol,
    Codes.rstCode_injective hc hrst⟩

/-- R103: the default codes give the formula's values and no others. -/
theorem exists_standard_encSetup_iff (v : Nat) :
    (∃ ref clk pol rst, (encSetup Codes.standard ref clk pol rst).toNat = v) ↔
      ∃ r ∈ [0, 2, 4, 5, 6, 7], ∃ k ∈ [0, 1], ∃ p ∈ [0, 1], ∃ t ∈ [0, 1],
        v = 0x80 ||| (r <<< 4) ||| (k <<< 3) ||| (p <<< 2) ||| (t <<< 1) := by
  constructor
  · rintro ⟨ref, clk, pol, rst, rfl⟩
    exact ⟨_, (mem_standard_refCode _).2 ⟨ref, rfl⟩, _, (mem_standard_clkCode _).2 ⟨clk, rfl⟩,
      _, (mem_standard_polCode _).2 ⟨pol, rfl⟩, _, (mem_standard_rstCode _).2 ⟨rst, rfl⟩, encSetup_toNat ..⟩
  · rintro ⟨r, hr, k, hk, p, hp, t, ht, rfl⟩
    obtain ⟨ref, rfl⟩ := (mem_standard_refCode r).1 hr
    obtain ⟨clk, rfl⟩ := (mem_standard_clkCode k).1 hk
    obtain ⟨pol, rfl⟩ := (mem_standard_polCode p).1 hp
    obtain ⟨rst, rfl⟩ := (mem_standard_rstCode t).1 ht
    exact ⟨ref, clk, pol, rst, encSetup_toNat ..⟩

/-- Settles O9: the marker and the clear bit 0 give the range, and the default values are the formula's. -/
theorem encSetupRange : Obligations.EncSetupRange := by
  refine ⟨fun c ref clk pol rst => ?_, exists_standard_encSetup_iff⟩
  have hmarker : isSetupByte (encSetup c ref clk pol rst) = true := isSetupByte_packSetup ..
  have hbit0 : (encSetup c ref clk pol rst).getLsbD 0 = false := packSetup_bit0 ..
  have heven := toNat_even_of_bit0_clear hbit0
  have hlt := (encSetup c ref clk pol rst).isLt
  exact ⟨hmarker, hbit0, le_toNat_of_isSetupByte hmarker, by omega, heven, hmarker⟩

end Machine

end Sys2Proof
end

section
/-! PROOFS. The ConfigEncoder (spec/41_config_encoder.md): the config byte as a number, its injectivity and its range. -/

namespace Sys2Proof

/-! ## The config byte layout -/

/-- R78: the layout as a number, fields at their offsets. -/
theorem packConfig_toNat (scan : BitVec 2) (cs : BitVec 4) (mode : BitVec 1) :
    (packConfig scan cs mode).toNat = (scan.toNat <<< 5) ||| (cs.toNat <<< 1) ||| mode.toNat := by
  simp only [packConfig, BitVec.toNat_append, Nat.shiftLeft_or_distrib, ← Nat.shiftLeft_add]
  simp

/-- R78: the fields of a config byte are read back from it. -/
theorem packConfig_inj {scan scan' : BitVec 2} {cs cs' : BitVec 4} {mode mode' : BitVec 1}
    (h : packConfig scan cs mode = packConfig scan' cs' mode') : scan = scan' ∧ cs = cs' ∧ mode = mode' := by
  obtain ⟨h, hmode⟩ := append_eq_append_iff.1 h
  obtain ⟨h, hcs⟩ := append_eq_append_iff.1 h
  obtain ⟨-, hscan⟩ := append_eq_append_iff.1 h
  exact ⟨hscan, hcs, hmode⟩

/-- R78: CS is at 4:1. -/
@[simp] theorem packConfig_cs (scan : BitVec 2) (cs : BitVec 4) (mode : BitVec 1) :
    (packConfig scan cs mode).extractLsb' 1 4 = cs := by
  rw [packConfig, BitVec.extractLsb'_append_eq_of_le (by decide)]
  exact BitVec.extractLsb'_append_eq_right

theorem toNat_le_of_not_isSetupByte {b : Byte} (h : isSetupByte b = false) : b.toNat ≤ 0x7F :=
  Nat.le_of_lt_succ (BitVec.toNat_lt_of_msb_false (BitVec.msb_eq_getLsbD_last b ▸ h))

/-! ## The config byte's enumerations, listed -/

/-- R79. -/
def ScanMode.all : List ScanMode := [.bank0, .scanX, .bank6, .only]

/-- R82; in the order of the default codes. -/
def InputMode.all : List InputMode := [.differential, .singleEnded]

theorem ScanMode.mem_all (scan : ScanMode) : scan ∈ ScanMode.all := by cases scan <;> decide
theorem InputMode.mem_all (mode : InputMode) : mode ∈ InputMode.all := by cases mode <;> decide

/-! ## The field codes -/

/-- R6: what an injective table says of the two coded fields of a config byte. -/
theorem Codes.config_codes_distinct {c : Codes} (h : c.wf = true) :
    [c.scanBank0, c.scanX, c.scanBank6, c.scanOnly].Nodup ∧ c.modeSingleEnded ≠ c.modeDifferential := by
  simp only [Codes.wf, Bool.and_eq_true, decide_eq_true_eq] at h
  obtain ⟨⟨-, hscan⟩, hmode⟩ := h
  exact ⟨hscan, hmode⟩

theorem Codes.scanCode_injective {c : Codes} (h : c.wf = true) : Function.Injective c.scanCode :=
  injective_of_nodup_map ScanMode.mem_all (Codes.config_codes_distinct h).1

theorem Codes.modeCode_injective {c : Codes} (h : c.wf = true) : Function.Injective c.modeCode := by
  obtain ⟨-, hmode⟩ := Codes.config_codes_distinct h
  exact injective_of_nodup_map InputMode.mem_all (by simpa [InputMode.all, Codes.modeCode] using hmode.symm)

/-- R80: the default SCAN codes are all the values of two bits. -/
theorem lt_four_iff_standard_scanCode (t : Nat) : t < 4 ↔ ∃ scan, (Codes.standard.scanCode scan).toNat = t :=
  List.mem_range.symm.trans (mem_map_iff_exists ScanMode.mem_all (fun scan => (Codes.standard.scanCode scan).toNat) t)

/-- R82: a default MODE code is 0 or 1, and both are used. -/
theorem lt_two_iff_standard_modeCode (m : Nat) : m < 2 ↔ ∃ mode, (Codes.standard.modeCode mode).toNat = m :=
  List.mem_range.symm.trans
    (mem_map_iff_exists InputMode.mem_all (fun mode => (Codes.standard.modeCode mode).toNat) m)

namespace Machine

/-! ## The channel field -/

/-- R111: a legal channel loses nothing when it is narrowed. -/
theorem narrowChannel_toNat {ch : Int} (h0 : 0 ≤ ch) (h1 : ch ≤ 11) : (narrowChannel ch).toNat = ch.toNat := by
  have hmod : ch % 16 = ch := Int.emod_eq_of_lt h0 (by omega)
  exact (BitVec.toNat_ofInt ..).trans (congrArg Int.toNat hmod)

theorem narrowChannel_inj {ch ch' : Int} (h0 : 0 ≤ ch) (h1 : ch ≤ 11) (h0' : 0 ≤ ch') (h1' : ch' ≤ 11)
    (h : narrowChannel ch = narrowChannel ch') : ch = ch' := by
  have hn := congrArg BitVec.toNat h
  rw [narrowChannel_toNat h0 h1, narrowChannel_toNat h0' h1'] at hn
  omega

/-! ## ENC_CONFIG -/

/-- R111: the check is made on the integer, before it is narrowed. -/
theorem encConfig_eq_chRange (c : Codes) (scan : ScanMode) {ch : Int} (mode : InputMode) (h : ch < 0 ∨ 11 < ch) :
    encConfig c scan ch mode = .error (.range .chRange) :=
  if_pos ((channelOk_eq_false ch).2 h)

/-- R110: the bytes ENC_CONFIG gives, and the channels it gives them for. -/
theorem encConfig_eq_ok_iff {c : Codes} {scan : ScanMode} {ch : Int} {mode : InputMode} {b : Byte} :
    encConfig c scan ch mode = .ok b ↔
      0 ≤ ch ∧ ch ≤ 11 ∧ packConfig (c.scanCode scan) (narrowChannel ch) (c.modeCode mode) = b := by
  by_cases h : 0 ≤ ch ∧ ch ≤ 11
  · rw [encConfig_ok h.1 h.2]
    simp [h]
  · rw [encConfig_eq_chRange c scan mode (by omega)]
    simp [← and_assoc, h]

/-- R110: the shift-and-or formula. -/
theorem encConfig_byte_toNat (c : Codes) (scan : ScanMode) {ch : Int} (mode : InputMode) (h0 : 0 ≤ ch)
    (h1 : ch ≤ 11) :
    (packConfig (c.scanCode scan) (narrowChannel ch) (c.modeCode mode)).toNat =
      ((c.scanCode scan).toNat <<< 5) ||| (ch.toNat <<< 1) ||| (c.modeCode mode).toNat := by
  rw [packConfig_toNat, narrowChannel_toNat h0 h1]

/-- Settles O10: the check fails outside 0..11, and inside it ENC_CONFIG is the layout with the narrowed channel. -/
theorem encConfigFormula : Obligations.EncConfigFormula :=
  ⟨fun c scan _ mode => ⟨encConfig_eq_chRange c scan mode, fun h0 h1 =>
    ⟨_, encConfig_ok h0 h1, rfl, encConfig_byte_toNat c scan mode h0 h1⟩⟩, by decide⟩

/-- R114: for an injective table, one legal input for each byte. -/
theorem encConfig_ok_inj {c : Codes} (hc : c.wf = true) {scan scan' : ScanMode} {ch ch' : Int} {mode mode' : InputMode}
    {b : Byte} (h : encConfig c scan ch mode = .ok b) (h' : encConfig c scan' ch' mode' = .ok b) :
    scan = scan' ∧ ch = ch' ∧ mode = mode' := by
  obtain ⟨h0, h1, rfl⟩ := encConfig_eq_ok_iff.1 h
  obtain ⟨h0', h1', hb⟩ := encConfig_eq_ok_iff.1 h'
  obtain ⟨hscan, hcs, hmode⟩ := packConfig_inj hb.symm
  exact ⟨Codes.scanCode_injective hc hscan, narrowChannel_inj h0 h1 h0' h1' hcs, Codes.modeCode_injective hc hmode⟩

/-- R113. -/
theorem encConfig_ok_range {c : Codes} {scan : ScanMode} {ch : Int} {mode : InputMode} {b : Byte}
    (h : encConfig c scan ch mode = .ok b) :
    b.getLsbD 7 = false ∧ (b.extractLsb' 1 4).toNat ≤ 11 ∧ b.toNat ≤ 0x7F ∧ isSetupByte b = false := by
  obtain ⟨h0, h1, rfl⟩ := encConfig_eq_ok_iff.1 h
  have hmarker := isSetupByte_packConfig (c.scanCode scan) (narrowChannel ch) (c.modeCode mode)
  refine ⟨hmarker, ?_, toNat_le_of_not_isSetupByte hmarker, hmarker⟩
  rw [packConfig_cs, narrowChannel_toNat h0 h1]
  omega

/-- R114: the default codes give the formula's values for channels 0..11 and no others. -/
theorem exists_standard_encConfig_iff (v : Nat) :
    (∃ scan ch mode b, encConfig Codes.standard scan ch mode = .ok b ∧ b.toNat = v) ↔
      ∃ t < 4, ∃ k < 12, ∃ m < 2, v = (t <<< 5) ||| (k <<< 1) ||| m := by
  constructor
  · rintro ⟨scan, ch, mode, b, h, rfl⟩
    obtain ⟨h0, h1, rfl⟩ := encConfig_eq_ok_iff.1 h
    exact ⟨_, (lt_four_iff_standard_scanCode _).2 ⟨scan, rfl⟩, ch.toNat, by omega,
      _, (lt_two_iff_standard_modeCode _).2 ⟨mode, rfl⟩, encConfig_byte_toNat _ _ _ h0 h1⟩
  · rintro ⟨t, ht, k, hk, m, hm, rfl⟩
    obtain ⟨scan, rfl⟩ := (lt_four_iff_standard_scanCode t).1 ht
    obtain ⟨mode, rfl⟩ := (lt_two_iff_standard_modeCode m).1 hm
    have h0 : (0 : Int) ≤ k := by omega
    have h1 : (k : Int) ≤ 11 := by omega
    exact ⟨scan, k, mode, _, encConfig_ok h0 h1, encConfig_byte_toNat _ _ _ h0 h1⟩

/-- Settles O11: the fields are disjoint and their codes injective, and the default values are the formula's. -/
theorem encConfigInjective : Obligations.EncConfigInjective :=
  ⟨fun _ hc _ _ _ _ _ _ _ => encConfig_ok_inj hc, fun _ _ _ _ _ => encConfig_ok_range, exists_standard_encConfig_iff⟩

end Machine

end Sys2Proof
end

section
/-! PROOFS. The ChannelScanPlanner (spec/42_scan_planner.md): its checks in order, its plans, and what every plan keeps. -/

namespace Sys2Proof.Machine

theorem channelOk_of_range {ch : Int} (h0 : 0 ≤ ch) (h1 : ch ≤ 11) : channelOk ch = true :=
  (channelOk_eq_true ch).2 ⟨h0, h1⟩

/-! ## PLAN_BANK -/

/-- R120: the first check is of the start, whatever the end is. -/
theorem planBank_eq_chRange {start : Int} (stop : Int) (h : start < 0 ∨ 11 < start) :
    planBank start stop = .error (.range .chRange) :=
  if_pos ((channelOk_eq_false start).2 h)

theorem planBank_eq_endRange {start stop : Int} (h0 : 0 ≤ start) (h1 : start ≤ 11) (h : stop < 0 ∨ 11 < stop) :
    planBank start stop = .error (.range .endRange) := by
  have hstop : channelOk stop = false := (channelOk_eq_false stop).2 h
  simp only [planBank, channelOk_of_range h0 h1, hstop, reduceCtorEq, if_true, if_false]

theorem planBank_eq_startGtEnd {start stop : Int} (h0 : 0 ≤ stop) (h1 : start ≤ 11) (h : stop < start) :
    planBank start stop = .error (.range .startGtEnd) := by
  have hstart := channelOk_of_range (ch := start) (by omega) h1
  have hstop := channelOk_of_range (ch := stop) h0 (by omega)
  simp only [planBank, hstart, hstop, gt_iff_lt, h, reduceCtorEq, if_true, if_false]

/-- R120: a start below 6 is scanned from bank 0. -/
theorem planBank_eq_bank0 {start stop : Int} (h0 : 0 ≤ start) (h6 : start < 6) (h1 : start ≤ stop) (h2 : stop ≤ 11) :
    ∃ wc : Nat, planBank start stop =
      .ok { scanMode := .bank0, baseChannel := 0, endChannel := stop.toNat, wordCount := wc } ∧
      (wc : Int) = stop + 1 := by
  obtain ⟨⟨mode, base, last, wc⟩, hp⟩ := planBank_some h0 h1 h2
  obtain ⟨-, -, -, rfl, ⟨-, rfl, rfl, hwc⟩ | ⟨hge, -⟩⟩ := planBank_ok hp
  · exact ⟨wc, hp, hwc⟩
  · omega

/-- R120: any other start is scanned from bank 6. -/
theorem planBank_eq_bank6 {start stop : Int} (h6 : 6 ≤ start) (h1 : start ≤ stop) (h2 : stop ≤ 11) :
    ∃ wc : Nat, planBank start stop =
      .ok { scanMode := .bank6, baseChannel := 6, endChannel := stop.toNat, wordCount := wc } ∧
      (wc : Int) = stop - 5 := by
  obtain ⟨⟨mode, base, last, wc⟩, hp⟩ := planBank_some (by omega) h1 h2
  obtain ⟨-, -, -, rfl, ⟨hlt, -⟩ | ⟨-, rfl, rfl, hwc⟩⟩ := planBank_ok hp
  · omega
  · exact ⟨wc, hp, hwc⟩

/-- Settles O12: each check in its order, then the bank of the start; R121's word counts follow from the range. -/
theorem planBankValues : Obligations.PlanBankValues := by
  intro start stop
  refine ⟨planBank_eq_chRange stop, planBank_eq_endRange, fun _ h1 h2 _ => planBank_eq_startGtEnd h2 h1, ?_, ?_⟩
  · intro h0 h6 h1 h2
    obtain ⟨wc, hp, hwc⟩ := planBank_eq_bank0 h0 h6 h1 h2
    exact ⟨wc, hp, hwc, by omega, by omega⟩
  · intro h6 h1 h2
    obtain ⟨wc, hp, hwc⟩ := planBank_eq_bank6 h6 h1 h2
    exact ⟨wc, hp, hwc, by omega, by omega⟩

/-! ## PLAN_SINGLE -/

theorem planSingle_eq_chRange {ch : Int} (h : ch < 0 ∨ 11 < ch) : planSingle ch = .error (.range .chRange) :=
  if_pos ((channelOk_eq_false ch).2 h)

theorem planSingle_eq_only {ch : Int} (h0 : 0 ≤ ch) (h1 : ch ≤ 11) :
    planSingle ch = .ok { scanMode := .only, baseChannel := ch.toNat, endChannel := ch.toNat, wordCount := 1 } :=
  if_neg (by simp [channelOk_of_range h0 h1])

/-! ## What every plan keeps -/

/-- R123, R124: every plan of PLAN_BANK. -/
theorem planBank_invariants {start stop : Int} {p : ScanPlan} (h : planBank start stop = .ok p) :
    (p.baseChannel = 0 ∨ p.baseChannel = 6) ∧ (p.baseChannel : Int) ≤ start ∧ start - p.baseChannel ≤ 5 ∧
    (p.endChannel : Int) = stop ∧ p.endChannel ≤ 11 ∧ p.baseChannel ≤ p.endChannel ∧
    (p.wordCount : Int) = p.endChannel - p.baseChannel + 1 ∧ (p.scanMode = .bank0 ∨ p.scanMode = .bank6) := by
  obtain ⟨h0, h1, h2, hlast, ⟨h6, hmode, hbase, hwc⟩ | ⟨h6, hmode, hbase, hwc⟩⟩ := planBank_ok h
  · exact ⟨.inl hbase, by omega, by omega, hlast, by omega, by omega, by omega, .inl hmode⟩
  · exact ⟨.inr hbase, by omega, by omega, hlast, by omega, by omega, by omega, .inr hmode⟩

/-- R123, R124: every plan of PLAN_SINGLE. -/
theorem planSingle_invariants {ch : Int} {p : ScanPlan} (h : planSingle ch = .ok p) :
    (p.baseChannel : Int) = ch ∧ (p.endChannel : Int) = ch ∧ 0 ≤ ch ∧ ch ≤ 11 ∧ p.wordCount = 1 ∧
    (p.wordCount : Int) = p.endChannel - p.baseChannel + 1 ∧ p.scanMode = .only := by
  obtain ⟨h0, h1, rfl⟩ := planSingle_ok h
  have hch : (ch.toNat : Int) = ch := Int.toNat_of_nonneg h0
  exact ⟨hch, hch, h0, h1, rfl, by simp, rfl⟩

/-- Settles O13, from what each planner's answer says of its request. -/
theorem planInvariants : Obligations.PlanInvariants :=
  ⟨fun _ _ _ => planBank_invariants, fun _ _ => planSingle_invariants⟩

/-! ## PLAN_COUNT -/

/-- R126: the first check is of the start, whatever the count is. -/
theorem planCount_eq_chRange {start : Int} (count : Int) (h : start < 0 ∨ 11 < start) :
    planCount start count = .error (.range .chRange) :=
  if_pos ((channelOk_eq_false start).2 h)

theorem planCount_eq_countLow {start count : Int} (h0 : 0 ≤ start) (h1 : start ≤ 11) (h : count < 1) :
    planCount start count = .error (.range .countLow) := by
  simp only [planCount, channelOk_of_range h0 h1, h, reduceCtorEq, if_true, if_false]

theorem planCount_eq_countOver {start count : Int} (h0 : 0 ≤ start) (h1 : start ≤ 11) (h2 : 1 ≤ count)
    (h : 11 < start + count - 1) : planCount start count = .error (.range .countOver) := by
  simp only [planCount, channelOk_of_range h0 h1, Int.not_lt.2 h2, gt_iff_lt, h, reduceCtorEq, if_true, if_false]

/-- R126: checks that pass leave PLAN_BANK a legal range. -/
theorem planCount_some {start count : Int} (h0 : 0 ≤ start) (h1 : 1 ≤ count) (h2 : start + count - 1 ≤ 11) :
    ∃ p, planCount start count = .ok p := by
  rw [planCount_eq h0 h1 h2]
  exact planBank_some h0 (by omega) h2

/-- Settles O14: each check in its order, then the inner plan, which exists. -/
theorem planSingleAndCountValues : Obligations.PlanSingleAndCountValues :=
  ⟨fun _ => ⟨planSingle_eq_chRange, planSingle_eq_only⟩, fun _ count =>
    ⟨planCount_eq_chRange count, planCount_eq_countLow, planCount_eq_countOver, fun h0 h1 h2 =>
      ⟨planCount_eq h0 h1 h2, planCount_some h0 h1 h2⟩⟩⟩

end Sys2Proof.Machine
end

section
/-! PROOFS. The BusTransaction (spec/43_bus_transaction.md): what a run of EXEC records, and the retry budget. -/

namespace Sys2Proof.Machine

/-! ## The loop of EXEC, by the outcome of its next attempt -/

section Loop

variable {addr : Bits7} {maxRetries retryDelay : Nat} {w : List Byte} {n attempts : Nat} {lastf : Option BusFaultKind}
  {events : List Event} {raw : BusOutcome} {rest : List BusOutcome}

/-- R138: no attempt follows an `Ok` outcome. -/
theorem execLoop_of_ok {bs : List Byte} (h : raw.admitted n = .ok bs) :
    execLoop addr maxRetries retryDelay w n attempts lastf events (raw :: rest) =
      { attempts := attempts + 1, lastf, events := events ++ [.attempt addr w n (.ok bs)], result := .bytes bs,
        rest } := by
  simp only [execLoop, h]

/-- R134, R135: a fault within the budget is followed by a wait and a retry. -/
theorem execLoop_of_retry {k : BusFaultKind} (h : raw.admitted n = .fault k) (hk : attempts + 1 ≤ maxRetries) :
    execLoop addr maxRetries retryDelay w n attempts lastf events (raw :: rest) =
      execLoop addr maxRetries retryDelay w n (attempts + 1) (some k)
        (events ++ [.attempt addr w n (.fault k)] ++ [.wait retryDelay]) rest := by
  simp only [execLoop, h, hk, if_true]

/-- R139: the fault of the last attempt surfaces. -/
theorem execLoop_of_lastFault {k : BusFaultKind} (h : raw.admitted n = .fault k) (hk : ¬ attempts + 1 ≤ maxRetries) :
    execLoop addr maxRetries retryDelay w n attempts lastf events (raw :: rest) =
      { attempts := attempts + 1, lastf := some k, events := events ++ [.attempt addr w n (.fault k)],
        result := .error (.bus k), rest } := by
  simp only [execLoop, h, hk, if_false]

end Loop

/-- The runs of EXEC: its own check fails (R131), there is nothing to do (R132), or the loop runs on the whole
transfer. -/
theorem execTransaction_cases (addr : Bits7) (maxRetries retryDelay : Nat) (w : List Int) (n : Int)
    (outs : List BusOutcome) :
    (∃ r, execTransaction addr maxRetries retryDelay w n outs =
      { attempts := 0, lastf := none, events := [], result := r, rest := outs }) ∨
    execTransaction addr maxRetries retryDelay w n outs =
      execLoop addr maxRetries retryDelay (w.map narrowByte) n.toNat 0 none [] outs := by
  unfold execTransaction
  rcases checkTransfer_cases w n with ⟨hc, -⟩ | ⟨hc, -⟩ | ⟨hc, -⟩ <;> simp only [hc]
  · exact .inl ⟨_, rfl⟩
  · exact .inl ⟨_, rfl⟩
  · split
    · exact .inl ⟨_, rfl⟩
    · exact .inr rfl

/-! ## What EXEC records -/

/-- R142: events that are all attempts of one and the same transfer and waits of one delay, with the number of each. -/
inductive TransferTrace (addr : Bits7) (w : List Byte) (n delay : Nat) : Nat → Nat → List Event → Prop
  | nil : TransferTrace addr w n delay 0 0 []
  | attempt {a k : Nat} {es : List Event} (out : BusOutcome) (h : TransferTrace addr w n delay a k es) :
      TransferTrace addr w n delay (a + 1) k (es ++ [.attempt addr w n out])
  | wait {a k : Nat} {es : List Event} (h : TransferTrace addr w n delay a k es) :
      TransferTrace addr w n delay a (k + 1) (es ++ [.wait delay])

namespace TransferTrace

variable {addr : Bits7} {w : List Byte} {n delay a k : Nat} {es : List Event}

theorem eq_wait_or_attempt (h : TransferTrace addr w n delay a k es) :
    ∀ e ∈ es, e = .wait delay ∨ ∃ out, e = .attempt addr w n out := by
  induction h with
  | nil => simp
  | attempt out _ ih => exact List.forall_mem_append.2 ⟨ih, by simp⟩
  | wait _ ih => exact List.forall_mem_append.2 ⟨ih, by simp⟩

theorem length_eq (h : TransferTrace addr w n delay a k es) : es.length = a + k := by
  induction h with
  | nil => rfl
  | attempt out _ ih => rw [List.length_append, ih, List.length_singleton]; omega
  | wait _ ih => rw [List.length_append, ih, List.length_singleton]; omega

theorem length_filter_wait (h : TransferTrace addr w n delay a k es) :
    (es.filter (fun e => decide (e = .wait delay))).length = k := by
  induction h with
  | nil => rfl
  | attempt out _ ih => simp [List.filter_append, ih]
  | wait _ ih => simp [List.filter_append, ih]

/-- R144: only the waits wait. -/
theorem waitingTime_eq (h : TransferTrace addr w n delay a k es) (tick : Nat) :
    waitingTime tick es = k * (delay * tick) := by
  induction h with
  | nil => simp [waitingTime]
  | attempt out _ ih => simpa [waitingTime, Event.waited] using ih
  | wait _ ih =>
    rw [Nat.succ_mul, ← ih]
    simp [waitingTime, Event.waited]

end TransferTrace

/-! ## The retry budget -/

/-- R134, R135, R142: a run whose events are attempts of one transfer and waits, within the budget, with one wait less
than attempts once it has ended. -/
def ExecRun.WithinBudget (addr : Bits7) (maxRetries retryDelay : Nat) (w : List Byte) (n : Nat) (run : ExecRun) :
    Prop :=
  ∃ waits, TransferTrace addr w n retryDelay run.attempts waits run.events ∧ run.attempts ≤ maxRetries + 1 ∧
    waits ≤ maxRetries ∧ (run.result ≠ .waiting → waits = run.attempts - 1)

/-- Before each attempt the loop has waited once for each attempt made, and the budget is not yet spent. -/
theorem execLoop_withinBudget {addr : Bits7} {maxRetries retryDelay : Nat} {w : List Byte} {n attempts : Nat}
    {events : List Event} (lastf : Option BusFaultKind) (outs : List BusOutcome)
    (h : TransferTrace addr w n retryDelay attempts attempts events) (hb : attempts ≤ maxRetries) :
    (execLoop addr maxRetries retryDelay w n attempts lastf events outs).WithinBudget addr maxRetries retryDelay w n := by
  induction outs generalizing attempts lastf events with
  | nil => exact ⟨attempts, h, by simp only [execLoop]; omega, hb, fun hw => absurd rfl hw⟩
  | cons raw rest ih =>
    cases ho : raw.admitted n with
    | ok bs =>
      rw [execLoop_of_ok ho]
      exact ⟨attempts, h.attempt _, Nat.succ_le_succ hb, hb, fun _ => rfl⟩
    | fault k =>
      by_cases hk : attempts + 1 ≤ maxRetries
      · rw [execLoop_of_retry ho hk]
        exact ih _ (h.attempt _).wait hk
      · rw [execLoop_of_lastFault ho hk]
        exact ⟨attempts, h.attempt _, Nat.succ_le_succ hb, hb, fun _ => rfl⟩

theorem execTransaction_withinBudget (addr : Bits7) (maxRetries retryDelay : Nat) (w : List Int) (n : Int)
    (outs : List BusOutcome) :
    (execTransaction addr maxRetries retryDelay w n outs).WithinBudget addr maxRetries retryDelay (w.map narrowByte)
      n.toNat := by
  rcases execTransaction_cases addr maxRetries retryDelay w n outs with ⟨r, hr⟩ | hr <;> rw [hr]
  · exact ⟨0, .nil, Nat.zero_le _, Nat.zero_le _, fun _ => rfl⟩
  · exact execLoop_withinBudget _ _ .nil (Nat.zero_le _)

/-- Settles O39: EXEC keeps within its budget, and the counts are those of its trace. -/
theorem execRetriesTheWholeTransfer : Obligations.ExecRetriesTheWholeTransfer := by
  rintro addr maxRetries retryDelay w n outs run rfl
  obtain ⟨waits, htrace, hattempts, hwaits, hended⟩ :=
    execTransaction_withinBudget addr maxRetries retryDelay w n outs
  have hfilter := htrace.length_filter_wait
  refine ⟨hattempts, htrace.eq_wait_or_attempt, hfilter.trans_le hwaits, fun hr => ?_, fun tick => ?_⟩
  · have hw := hended hr
    exact ⟨hfilter.trans hw, hw ▸ htrace.length_eq⟩
  · rw [htrace.waitingTime_eq]
    exact Nat.mul_le_mul_right _ hwaits

end Sys2Proof.Machine
end

section
/-! PROOFS. The ResultDecoder (spec/44_result_decoder.md): UNPACK as a formula, its round trip, and what DECODE takes. -/

namespace Sys2Proof.Machine

/-! ## UNPACK -/

/-- R150: the mask-then-shift formula; the mask is the remainder modulo 16. -/
theorem unpack_toNat (hi lo : Byte) : (unpack hi lo).toNat = ((hi.toNat &&& 0x0F) <<< 8) ||| lo.toNat := by
  have hmask : hi.toNat &&& 0x0F = hi.toNat % 2 ^ 4 := Nat.and_two_pow_sub_one_eq_mod hi.toNat 4
  rw [unpack_eq_append, BitVec.toNat_append, BitVec.extractLsb'_toNat, Nat.shiftRight_zero, hmask]

/-- R156: a mask moved along with the value it masks keeps the same bits. -/
theorem mask_shiftLeft_eq_shiftLeft_mask (n : Nat) : (n &&& 0x0F) <<< 8 = (n <<< 8) &&& 0x0F00 :=
  Nat.shiftLeft_and_distrib

/-- Settles O15: the formula, its shift-then-mask variant, and the pair `(0x01, 0x00)`, which a shift by 15 gets
wrong. -/
theorem unpackFormula : Obligations.UnpackFormula := by
  refine ⟨fun hi lo => ⟨unpack_toNat hi lo, unpack_eq_append hi lo, ?_⟩, 0x01, 0x00, by decide⟩
  rw [← mask_shiftLeft_eq_shiftLeft_mask]
  exact unpack_toNat hi lo

/-! ## The word encoding -/

/-- R155: the sample stands in the word's low twelve bits, which UNPACK reads. -/
theorem unpack_packWord (v : Sample) (pad : BitVec 4) : unpack (packWord v pad).1 (packWord v pad).2 = v :=
  calc unpack (pad ++ v.extractLsb' 8 4) (v.extractLsb' 0 8)
    _ = v.extractLsb' 8 4 ++ v.extractLsb' 0 8 := unpack_append ..
    _ = v.extractLsb' 0 12 := BitVec.extractLsb'_append_extractLsb'_eq_extractLsb' rfl
    _ = v := BitVec.extractLsb'_eq_self

/-- R155: a sample has twelve bits, so its high nibble is all that a shift by 8 leaves. -/
theorem packWord_fst_toNat (v : Sample) (pad : BitVec 4) :
    (packWord v pad).1.toNat = (pad.toNat <<< 4) ||| (v.toNat >>> 8) := by
  have hv : v.toNat >>> 8 < 2 ^ 4 := by
    rw [Nat.shiftRight_eq_div_pow]
    exact Nat.div_lt_of_lt_mul v.isLt
  rw [packWord, BitVec.toNat_append, BitVec.extractLsb'_toNat, Nat.mod_eq_of_lt hv]

/-- R155: the low byte is the remainder modulo 256. -/
theorem packWord_snd_toNat (v : Sample) (pad : BitVec 4) : (packWord v pad).2.toNat = v.toNat &&& 0xFF := by
  rw [packWord, BitVec.extractLsb'_toNat, Nat.shiftRight_zero]
  exact (Nat.and_two_pow_sub_one_eq_mod v.toNat 8).symm

/-- Settles O16: the round trip, and each byte of the word encoding as a number. -/
theorem sampleRoundTrip : Obligations.SampleRoundTrip :=
  fun v pad => ⟨unpack_packWord v pad, packWord_fst_toNat v pad, packWord_snd_toNat v pad⟩

/-! ## DECODE -/

/-- Settles O17: the length check comes first, a covering window is taken whole, and every planner's plan covers the
window its operation asks for. -/
theorem decodeIsExact : Obligations.DecodeIsExact :=
  ⟨fun _ _ _ _ => decodeResult_mismatch, fun _ _ _ _ hl hbase hcount => decodeResult_covers ⟨hbase, hcount⟩ hl,
    fun _ _ _ => planBank_covers, fun _ _ _ => planCount_covers, fun _ _ => planSingle_covers⟩

end Sys2Proof.Machine
end

section
/-! PROOFS. The operations (spec/45_operations.md): a READ_RANGE answered in full, and a completion that knows of the
attempts only their count. -/

namespace Sys2Proof.Machine

/-! ## The pairs of READ_RANGE's map -/

theorem labelSamples_cons (start : Nat) (x : Sample) (ss : List Sample) :
    labelSamples start (x :: ss) = (start, x) :: labelSamples (start + 1) ss := by
  simp only [labelSamples, List.mapIdx_cons, Nat.add_zero, Nat.add_assoc, Nat.add_comm 1]

/-- R166: the keys are consecutive from the start, hence each once and ascending. -/
theorem labelSamples_keys (start : Nat) (ss : List Sample) :
    (labelSamples start ss).map Prod.fst = List.range' start ss.length := by
  induction ss generalizing start with
  | nil => rfl
  | cons x ss ih => rw [labelSamples_cons, List.map_cons, ih, List.length_cons, List.range'_succ]

theorem mem_labelSamples {start : Nat} {ss : List Sample} {pr : Nat × Sample} :
    pr ∈ labelSamples start ss ↔ ∃ j, pr.1 = start + j ∧ ss[j]? = some pr.2 := by
  obtain ⟨ch, x⟩ := pr
  simp only [labelSamples, List.mem_mapIdx, List.getElem?_eq_some_iff, Prod.mk.injEq]
  constructor
  · rintro ⟨j, hj, rfl, rfl⟩
    exact ⟨j, rfl, hj, rfl⟩
  · rintro ⟨j, rfl, hj, rfl⟩
    exact ⟨j, hj, rfl, rfl⟩

/-! ## READ_RANGE -/

/-- R165: Prepare of a READ_RANGE with a plan cannot fail, and writes one config byte. -/
theorem prepare_readRange (c : Codes) {start stop : Int} (mode : InputMode) {p : ScanPlan}
    (h : planBank start stop = .ok p) :
    ∃ b, isSetupByte b = false ∧
      prepare c (.readRange start stop mode) = .ok { plan := some p, wbuf := [b], rlen := 2 * p.wordCount } := by
  obtain ⟨-, -, -, -, hend, -⟩ := planBank_invariants h
  exact ⟨_, isSetupByte_packConfig _ _ _, by rw [prepare, prepareReadRange, h, prepareRead_some hend]⟩

/-- R165, R166: Finish of a READ_RANGE on an answer of the planned length: a map of the range, each channel with the
sample of its own word. -/
theorem finish_readRange {start stop : Int} (mode : InputMode) {p : ScanPlan} {bytes : List Byte}
    (h : planBank start stop = .ok p) (hl : bytes.length = 2 * p.wordCount) :
    ∃ ps, finish (.readRange start stop mode) (some p) bytes = .ok (.payload (.map ps)) ∧
      ps.map Prod.fst = List.range' start.toNat (stop - start + 1).toNat ∧
      ∀ pr ∈ ps, pr.2 = unpack (bytes.getD (2 * (pr.1 - p.baseChannel)) 0)
        (bytes.getD (2 * (pr.1 - p.baseChannel) + 1) 0) := by
  obtain ⟨ss, hd, hlen, hget⟩ := decodeResult_covers (planBank_covers h) hl
  refine ⟨labelSamples start.toNat ss, by simp only [finish, finishReadRange, hd], ?_, ?_⟩
  · rw [labelSamples_keys, hlen]
  · intro pr hpr
    obtain ⟨j, hch, hj⟩ := mem_labelSamples.1 hpr
    have hlt : j < (stop - start + 1).toNat := hlen ▸ (List.getElem?_eq_some_iff.1 hj).1
    rw [hget j hlt] at hj
    rw [hch]
    exact (Option.some.inj hj).symm

/-- Settles O33: the accept step and one attempt, whose completion is Finish's map; the one byte written is a config
byte, which the device's register does not keep. -/
theorem readRangeResult : Obligations.ReadRangeResult := by
  intro s item rest bytes more start stop mode p hr hd hplan hl hb
  obtain ⟨b, hcfg, hp⟩ := prepare_readRange s.codes mode hplan
  obtain ⟨ps, hf, hkeys, hvals⟩ := finish_readRange mode hplan hl
  have hread : ¬ 2 * p.wordCount = 0 := by
    obtain ⟨-, -, -, -, -, hle, hwc, -⟩ := planBank_invariants hplan
    omega
  have hrun := core_run_two (q := .readRange start stop mode) (c := .payload (.map ps)) hr hd hp (by simp) hb
    (by rwa [if_neg hread])
  exact ⟨_, ps, hrun, rfl, rfl, hkeys, hvals, lastSetup_none (w := [b]) (by simpa using hcfg) s.devSetup⟩

/-! ## Completions and the number of attempts -/

/-- R176: of the attempts a response holds their count alone. -/
theorem Completion.response_eq_with_attempts (c : Completion) (n m : Nat) :
    c.response n = { c.response m with attempts := n } := by
  cases c <;> rfl

@[simp] theorem Completion.response_attempts (c : Completion) (n : Nat) : (c.response n).attempts = n := by
  cases c <;> rfl

/-- R137, R138: an attempt the bus answers with `Ok` that steps on has completed, with what Finish makes of its
registers and of the bytes. -/
theorem attemptStep_ok_next_iff {s t : State} (h : s.phase ≠ .idle) {bytes : List Byte} {more : List BusOutcome}
    (hb : s.busPort = .ok bytes :: more) :
    attemptStep s = .next t ↔ ∃ c, finish s.req s.plan (if s.rlen = 0 then [] else bytes) = .ok c ∧
      t = s.completed (if s.rlen = 0 then [] else bytes) c := by
  rw [attemptStep_ok h hb]
  cases finish s.req s.plan (if s.rlen = 0 then [] else bytes) <;> simp [eq_comm]

/-- Settles O37: Finish reads the request, the plan and the bytes alone, so both attempts have one completion. -/
theorem resultIndependentOfAttempts : Obligations.ResultIndependentOfAttempts := by
  intro s s' bytes more more' t hq hq' hph hph' hreq hplan hrlen hb hb' h
  rw [step_attempt hq hph, attemptStep_ok_next_iff (by simp [hph]) hb] at h
  obtain ⟨c, hf, rfl⟩ := h
  rw [hreq, hplan, hrlen] at hf
  have h' : step s' = .next (s'.completed (if s'.rlen = 0 then [] else bytes) c) := by
    rw [step_attempt hq' hph', attemptStep_ok_next_iff (by simp [hph']) hb']
    exact ⟨c, hf, rfl⟩
  exact ⟨_, _, _, h', rfl, rfl, c.response_eq_with_attempts _ _, c.response_attempts _⟩

end Sys2Proof.Machine
end

section
/-! PROOFS. Errors and the end of an operation (spec/60_exceptions.md): the STATUS byte field by field, and an end that
BUSY and RSP_VALID signal together. -/

namespace Sys2Proof.Machine

/-! ## The fields of STATUS -/

@[simp] theorem Response.status_kind (r : Response) : r.status.extractLsb' 0 2 = r.kind.code :=
  BitVec.extractLsb'_append_eq_right

@[simp] theorem Response.status_busf (r : Response) : r.status.extractLsb' 2 2 = busfCode r.busf := by
  rw [Response.status, BitVec.extractLsb'_append_eq_of_le (by decide)]
  exact BitVec.extractLsb'_append_eq_right

@[simp] theorem Response.status_cause (r : Response) : r.status.extractLsb' 4 4 = r.cause.code := by
  rw [Response.status, BitVec.extractLsb'_append_eq_of_le (by decide)]
  exact BitVec.extractLsb'_append_eq_left

theorem State.status_of_rsp_none {s : State} (h : s.rsp = none) : s.status = 0x00 := by
  simp only [State.status, h]

theorem State.status_of_rsp_some {s : State} {r : Response} (h : s.rsp = some r) : s.status = r.status := by
  simp only [State.status, h]

theorem State.rspValid_eq_false {s : State} : s.rspValid = false ↔ s.rsp = none :=
  Option.isSome_eq_false_iff.trans Option.isNone_iff_eq_none

theorem State.rspValid_eq_true {s : State} : s.rspValid = true ↔ ∃ r, s.rsp = some r :=
  Option.isSome_iff_exists

/-- Settles O18: STATUS is that of the response held, whose fields stand side by side; the code tables are the listed
numbers. -/
theorem statusPacking : Obligations.StatusPacking := by
  refine ⟨fun s h => ⟨State.status_of_rsp_none h, State.rspValid_eq_false.2 h⟩, fun s r h => ?_,
    by decide, by decide, by decide⟩
  rw [State.status_of_rsp_some h]
  exact ⟨State.rspValid_eq_true.2 ⟨r, h⟩, r.status_kind, r.status_busf, r.status_cause⟩

/-! ## The end of an operation -/

theorem State.busy_eq_true {s : State} : s.busy = true ↔ s.phase ≠ .idle := decide_eq_true_iff

theorem State.busy_eq_false {s : State} : s.busy = false ↔ s.phase = .idle := by simp [State.busy]

/-- R211: what a caller sees at the end of an operation and at no time before it. -/
def State.SignalsEnd (s : State) : Prop := s.busy = false ↔ s.rspValid = true

/-- R136: an operation in flight holds no response. -/
theorem State.signalsEnd_of_inFlight {s : State} (hp : s.phase ≠ .idle) (hr : s.rsp = none) : s.SignalsEnd := by
  simp [State.SignalsEnd, State.busy_eq_false, State.rspValid_eq_true, hp, hr]

/-- R213: an operation that has ended has left its response. -/
theorem State.signalsEnd_of_ended {s : State} {r : Response} (hp : s.phase = .idle) (hr : s.rsp = some r) :
    s.SignalsEnd := by
  simp [State.SignalsEnd, State.busy_eq_false, State.rspValid_eq_true, hp, hr]

/-- R137-R139: an attempt leaves its operation in flight, or ends it with a response. -/
theorem attemptStep_signalsEnd {s t : State} (hi : s.Inv) (hne : s.phase ≠ .idle) (h : attemptStep s = .next t) :
    t.SignalsEnd := by
  have hr : s.rsp = none := hi.rspBusy hne
  rcases attemptStep_cases hne (hi.prepared hne) with ⟨-, ha⟩ | ⟨bytes, got, c, -, -, -, ha⟩ | ⟨k, -, -, ha⟩ |
    ⟨k, -, -, ha⟩ <;> rw [ha] at h <;> cases h
  · exact State.signalsEnd_of_inFlight hne hr
  · exact State.signalsEnd_of_ended rfl rfl
  · exact State.signalsEnd_of_inFlight (by simp) hr
  · exact State.signalsEnd_of_ended rfl rfl

/-- R135: a wait leaves its operation in flight. -/
theorem backoffStep_signalsEnd {s t : State} (hr : s.rsp = none) (h : backoffStep s = .next t) : t.SignalsEnd := by
  cases h
  exact State.signalsEnd_of_inFlight (by simp) hr

/-- Settles O55, by the phase of the operation in flight. -/
theorem completionIsSignalled : Obligations.CompletionIsSignalled := by
  intro s t hi hq hb h
  have hne : s.phase ≠ .idle := State.busy_eq_true.1 hb
  cases hp : s.phase with
  | idle => exact absurd hp hne
  | attempt => exact attemptStep_signalsEnd hi hne ((step_attempt hq hp).symm.trans h)
  | backoff => exact backoffStep_signalsEnd (hi.rspBusy hne) ((step_backoff hq.linesLow hp).symm.trans h)

end Sys2Proof.Machine
end

section
/-! PROOFS. The encodings (spec/30_encoding.md), both ways: what is encoded decodes to itself and every byte on the wire
is the encoding of its instruction; what is reserved is refused; and what a realisation's fields carry. -/

namespace Sys2Proof

/-! ## Command bytes, field by field -/

/-- A bit of a byte, as a field one bit wide. -/
theorem extractLsb'_one_of_bit {b : Byte} {i : Nat} {x : Bool} (h : b.getLsbD i = x) :
    b.extractLsb' i 1 = BitVec.ofBool x := by
  apply BitVec.eq_of_getLsbD_eq
  intro j hj
  obtain rfl : j = 0 := by omega
  simp [h]

/-- R73: a setup byte is the layout of its own fields. -/
theorem packSetup_fields {b : Byte} (h : isSetupByte b = true) :
    packSetup (b.extractLsb' 4 3) (b.extractLsb' 3 1) (b.extractLsb' 2 1) (b.extractLsb' 1 1)
      (b.extractLsb' 0 1) = b := by
  have hmarker : (1#1 : BitVec 1) = b.extractLsb' 7 1 := (extractLsb'_one_of_bit (i := 7) h).symm
  simp (disch := rfl) only [packSetup, hmarker, BitVec.extractLsb'_append_extractLsb'_eq_extractLsb']
  exact BitVec.extractLsb'_eq_self

/-- R78: a config byte is the layout of its own fields. -/
theorem packConfig_fields {b : Byte} (h : isSetupByte b = false) :
    packConfig (b.extractLsb' 5 2) (b.extractLsb' 1 4) (b.extractLsb' 0 1) = b := by
  have hmarker : (0#1 : BitVec 1) = b.extractLsb' 7 1 := (extractLsb'_one_of_bit (i := 7) h).symm
  simp (disch := rfl) only [packConfig, hmarker, BitVec.extractLsb'_append_extractLsb'_eq_extractLsb']
  exact BitVec.extractLsb'_eq_self

/-- R78: SCAN is at 6:5, CS at 4:1 and MODE at 0. -/
theorem packConfig_extract (scan : BitVec 2) (cs : BitVec 4) (mode : BitVec 1) :
    (packConfig scan cs mode).extractLsb' 5 2 = scan ∧ (packConfig scan cs mode).extractLsb' 1 4 = cs ∧
      (packConfig scan cs mode).extractLsb' 0 1 = mode :=
  packConfig_inj (packConfig_fields (Machine.isSetupByte_packConfig scan cs mode))

theorem decodeCommand_packSetup (c : Codes) (ref : BitVec 3) (clk pol rst unused : BitVec 1) :
    decodeCommand c (packSetup ref clk pol rst unused) = .setupByte ref clk pol rst unused := by
  have hmarker := Machine.isSetupByte_packSetup ref clk pol rst unused
  obtain ⟨href, hclk, hpol, hrst, hunused⟩ := packSetup_inj (packSetup_fields hmarker)
  rw [decodeCommand_of_bit7_set c hmarker, href, hclk, hpol, hrst, hunused]

/-! ## The codes read backwards -/

theorem RefSel.ofIndex_index (ref : RefSel) : RefSel.ofIndex ref.index = some ref := by
  cases ref <;> decide

theorem RefSel.ofIndex_reserved {b : BitVec 3} (h : 6 ≤ b.toNat) : RefSel.ofIndex b = none :=
  (by decide : ∀ b : BitVec 3, 6 ≤ b.toNat → RefSel.ofIndex b = none) b h

/-- Four distinct codes of two bits are all of them. -/
theorem mem_of_nodup_four : ∀ a b c d : BitVec 2, [a, b, c, d].Nodup → ∀ x, x = a ∨ x = b ∨ x = c ∨ x = d := by
  decide

section
variable {c : Codes} (h : c.wf = true)
include h

theorem Codes.clkOf_clkCode (clk : Clock) : c.clkOf (c.clkCode clk) = clk := by
  obtain ⟨-, hclk, -, -⟩ := Codes.setup_codes_distinct h
  cases clk <;> simp [Codes.clkOf, Codes.clkCode, hclk.symm]

theorem Codes.polOf_polCode (pol : Polarity) : c.polOf (c.polCode pol) = pol := by
  obtain ⟨-, -, hpol, -⟩ := Codes.setup_codes_distinct h
  cases pol <;> simp [Codes.polOf, Codes.polCode, hpol.symm]

theorem Codes.rstOf_rstCode (rst : ResetSel) : c.rstOf (c.rstCode rst) = rst := by
  obtain ⟨-, -, -, hrst⟩ := Codes.setup_codes_distinct h
  cases rst <;> simp [Codes.rstOf, Codes.rstCode, hrst.symm]

theorem Codes.modeOf_modeCode (mode : InputMode) : c.modeOf (c.modeCode mode) = mode := by
  obtain ⟨-, hmode⟩ := Codes.config_codes_distinct h
  cases mode <;> simp [Codes.modeOf, Codes.modeCode, hmode.symm]

/-- R80: the scan codes are a bijection, read backwards. -/
theorem Codes.scanCode_scanOf (b : BitVec 2) : c.scanCode (c.scanOf b) = b := by
  obtain ⟨hscan, -⟩ := Codes.config_codes_distinct h
  unfold Codes.scanOf
  split_ifs with h0 h1 h2
  · exact h0.symm
  · exact h1.symm
  · exact h2.symm
  · have hlast := mem_of_nodup_four _ _ _ _ hscan b
    simp only [h0, h1, h2, false_or] at hlast
    exact hlast.symm

theorem Codes.scanOf_scanCode (scan : ScanMode) : c.scanOf (c.scanCode scan) = scan :=
  Codes.scanCode_injective h (Codes.scanCode_scanOf h _)

theorem decodeCommand_packConfig (scan : ScanMode) (cs : BitVec 4) (mode : BitVec 1) :
    decodeCommand c (packConfig (c.scanCode scan) cs mode) = configInstr cs mode scan := by
  obtain ⟨hscan, hcs, hmode⟩ := packConfig_extract (c.scanCode scan) cs mode
  rw [decodeCommand_of_bit7_clear c (Machine.isSetupByte_packConfig ..), hscan, hcs, hmode, Codes.scanOf_scanCode h]

end

/-! ## The two round trips -/

/-- The decoder refuses no reserved OP: that is the machine's to do (R91). -/
theorem decodeRequest_reservedOp (c : Codes) {p : PortWord} (h : 5 ≤ p.op.toNat) :
    decodeRequest c p = .ok (.reservedOp p.op) := by
  have hne : ∀ k : BitVec 3, k.toNat < 5 → ¬ p.op = k := fun k hk he => by rw [he] at h; omega
  simp only [decodeRequest, hne 0 (by decide), hne 1 (by decide), hne 2 (by decide), hne 3 (by decide),
    hne 4 (by decide), if_false]

theorem decodeRequest_reservedRef (c : Codes) {p : PortWord} (h : p.op = 0) (hr : 6 ≤ p.ref.toNat) :
    decodeRequest c p = .error (.reservedRef p.ref) := by
  simp only [decodeRequest, h, if_true, RefSel.ofIndex_reserved hr]

/-- R85: the padding and the high nibble of `hi` are read back from it. -/
theorem decodeWire_word_append (c : Codes) (pad high : BitVec 4) (low : Byte) :
    decodeWire c (.word (pad ++ high) low) = .resultWord pad high low := by
  simp only [decodeWire, BitVec.extractLsb'_append_eq_left, BitVec.extractLsb'_append_eq_right]

/-- Settles O1: a request by its OP, with each field's code read backwards; a command byte and a result word by their
layouts. -/
theorem decodeEncodeAllInstructions : Obligations.DecodeEncodeAllInstructions := by
  intro c i hc hi
  cases i with
  | setup ref clk pol rst =>
    simp [decodeItem, encodeItem, decodeRequest, PortWord.blank, RefSel.ofIndex_index, Codes.clkOf_clkCode hc,
      Codes.polOf_polCode hc, Codes.rstOf_rstCode hc]
  | readSingle | readRange | readMultiple =>
    simp [decodeItem, encodeItem, decodeRequest, PortWord.blank, Codes.modeOf_modeCode hc]
  | xfer w n => simp [decodeItem, encodeItem, decodeRequest, PortWord.blank]
  | reservedOp op => exact decodeRequest_reservedOp c (p := PortWord.blank op) (of_decide_eq_true hi)
  | setupByte ref clk pol rst unused => exact congrArg Except.ok (decodeCommand_packSetup c ref clk pol rst unused)
  | configBank0 cs mode => exact congrArg Except.ok (decodeCommand_packConfig hc .bank0 cs mode)
  | configScanX cs mode => exact congrArg Except.ok (decodeCommand_packConfig hc .scanX cs mode)
  | configBank6 cs mode => exact congrArg Except.ok (decodeCommand_packConfig hc .bank6 cs mode)
  | configOnly cs mode => exact congrArg Except.ok (decodeCommand_packConfig hc .only cs mode)
  | resultWord pad high low => exact congrArg Except.ok (decodeWire_word_append c pad high low)

theorem encodeItem_configInstr (c : Codes) (cs : BitVec 4) (mode : BitVec 1) (scan : ScanMode) :
    encodeItem c (configInstr cs mode scan) = .command (packConfig (c.scanCode scan) cs mode) := by
  cases scan <;> rfl

/-- R72: a command byte is the encoding of its own instruction. -/
theorem encodeItem_decodeCommand {c : Codes} (hc : c.wf = true) (b : Byte) :
    encodeItem c (decodeCommand c b) = .command b := by
  cases h : isSetupByte b with
  | true =>
    rw [decodeCommand_of_bit7_set c h]
    exact congrArg PortItem.command (packSetup_fields h)
  | false =>
    rw [decodeCommand_of_bit7_clear c h, encodeItem_configInstr, Codes.scanCode_scanOf hc, packConfig_fields h]

/-- R85: a pair of bytes is the encoding of its own result word. -/
theorem encodeItem_decodeWire_word (c : Codes) (hi lo : Byte) :
    encodeItem c (decodeWire c (.word hi lo)) = .word hi lo :=
  congrArg (PortItem.word · lo) (Machine.nibbles_append hi)

/-- Settles O2: every byte and every pair of bytes is the layout of the fields it decodes to. -/
theorem encodeDecodeWireFormats : Obligations.EncodeDecodeWireFormats :=
  ⟨fun _ b hc => encodeItem_decodeCommand hc b, fun c hi lo => ⟨_, rfl, encodeItem_decodeWire_word c hi lo⟩⟩

/-- Settles O4: the decoder evaluated on the eight words. -/
theorem writtenOutWordsDecode : Obligations.WrittenOutWordsDecode := by
  unfold Obligations.WrittenOutWordsDecode
  decide

namespace Machine

/-! ## What is reserved -/

/-- Settles O5: the decoder's answer decides the step. -/
theorem reservedRequestsRefused : Obligations.ReservedRequestsRefused := by
  refine ⟨fun s p rest ⟨hq, hph, hport⟩ => ⟨fun hop => ?_, fun hop href => ?_⟩, fun _ _ => rfl⟩
  · rw [step_take hq.linesLow hph hport, decodeRequest_reservedOp s.codes hop]
    rfl
  · rw [step_take hq.linesLow hph hport, decodeRequest_reservedRef s.codes hop href]
    rfl

/-! ## A realisation's fields -/

theorem carries_eq_true {argW : Nat} {x : Int} :
    carries argW x = true ↔ -(2 : Int) ^ (argW - 1) ≤ x ∧ x < (2 : Int) ^ (argW - 1) := by
  simp [carries]

/-- R89: a field reads back every integer it carries. -/
theorem argField_toInt {argW : Nat} (hw : 1 ≤ argW) {x : Int}
    (h : -(2 : Int) ^ (argW - 1) ≤ x ∧ x < (2 : Int) ^ (argW - 1)) : (argField argW x).toInt = x :=
  BitVec.toInt_ofInt_eq_self hw h.1 h.2

/-- Settles O6: each integer fits its field and is read back from it. -/
theorem realisationPresentsWhatItCarries : Obligations.RealisationPresentsWhatItCarries := by
  intro argW p hw h0 h1 hl
  have hlist : (p.wlist.map (argField argW)).map BitVec.toInt = p.wlist := by
    rw [List.map_map]
    exact (List.map_congr_left fun x hx => argField_toInt hw (hl x hx)).trans (List.map_id' _)
  refine ⟨?_, ?_⟩
  · simp only [realisationCarries, Bool.and_eq_true, List.all_eq_true, carries_eq_true]
    exact ⟨⟨h0, h1⟩, hl⟩
  · simp only [toRealWord, RealWord.toPort, argField_toInt hw h0, argField_toInt hw h1, hlist]

end Machine

end Sys2Proof
end

section
/-! PROOFS. The invariant (spec/10_state.md, spec/43_bus_transaction.md): it holds after a reset, every step keeps it,
and under it no step faults and STATUS shows the listed values alone. -/

namespace Sys2Proof.Machine

/-! ## Legal responses -/

/-- R206: a payload after any number of attempts the budget allows. -/
theorem okResponse_legal (p : Payload) {maxRetries n : Nat} (h : n ≤ maxRetries + 1) :
    (okResponse p n).legal maxRetries = true := by
  simp [Response.legal, okResponse, h]

/-- R206: a RangeError ends an operation before its first attempt. -/
theorem rangeResponse_legal (maxRetries : Nat) {k : Cause}
    (h : k ∈ [Cause.chRange, .endRange, .startGtEnd, .countLow, .countOver, .byteDomain, .negLength]) :
    (errorResponse (.range k) 0).legal maxRetries = true := by
  simp only [Response.legal, errorResponse, Error.kind, Error.cause, Error.busf, h, decide_true, Bool.and_true]

/-- R139: a BusFault surfaces when the budget is spent. -/
theorem busResponse_legal (k : BusFaultKind) (maxRetries : Nat) :
    (errorResponse (.bus k) (maxRetries + 1)).legal maxRetries = true := by
  simp [Response.legal, errorResponse, Error.kind, Error.cause, Error.busf]

/-- R138: a ProtocolError ends the attempt it comes from. -/
theorem protocolResponse_legal {maxRetries n : Nat} (h1 : 1 ≤ n) (h : n ≤ maxRetries + 1) :
    (errorResponse (.protocol .lenMismatch) n).legal maxRetries = true := by
  simp [Response.legal, errorResponse, Error.kind, Error.cause, Error.busf, h1, h]

/-- R138: however Finish ends an operation whose plan its own Prepare made, the response is legal. -/
theorem completion_legal {cs : Codes} {q : Request} {pr : Prepared} (hp : prepare cs q = .ok pr) {bytes : List Byte}
    {c : Completion} (hf : finish q pr.plan bytes = .ok c) {maxRetries n : Nat} (h1 : 1 ≤ n) (h : n ≤ maxRetries + 1) :
    (c.response n).legal maxRetries = true := by
  rcases finish_total hp bytes with ⟨p, hf'⟩ | ⟨hf', -⟩ <;> rw [hf'] at hf <;> cases hf
  · exact okResponse_legal p h
  · exact protocolResponse_legal h1 h

/-! ## The grammar of HIST, event by event -/

section
variable {addr : Bits7} {maxRetries retryDelay : Nat} {c : Codes}

@[simp] theorem traceNext_accept (q : Request) :
    traceNext addr maxRetries retryDelay c (some .idle) (.accept q.op q) = traceAfterAccept c q := by
  simp [traceNext]

@[simp] theorem traceNext_respond (r : Response) :
    traceNext addr maxRetries retryDelay c (some (.due r)) (.respond r) = some .idle := by
  simp [traceNext]

@[simp] theorem traceNext_wait (q : Request) (k : Nat) :
    traceNext addr maxRetries retryDelay c (some (.waiting q k)) (.wait retryDelay) = some (.ready q k) := by
  simp [traceNext]

theorem traceNext_attempt {q : Request} {k : Nat} {pr : Prepared} {out : BusOutcome} (hp : prepare c q = .ok pr)
    (ho : out.admitted pr.rlen = out) :
    traceNext addr maxRetries retryDelay c (some (.ready q k)) (.attempt addr pr.wbuf pr.rlen out) =
      traceAfterAttempt maxRetries q pr.plan (k + 1) out := by
  simp [traceNext, hp, ho]

theorem traceAfterAccept_error {q : Request} {e : Error} (hp : prepare c q = .error e) :
    traceAfterAccept c q = some (.due (errorResponse e 0)) := by
  simp only [traceAfterAccept, hp]

theorem traceAfterAccept_nothing : traceAfterAccept c (.xfer [] 0) = some (.due (okResponse .empty 0)) := by
  simp [traceAfterAccept, prepare_xfer_nothing, finish, finishXfer, Completion.response]

theorem traceAfterAccept_bus {q : Request} {pr : Prepared} (hp : prepare c q = .ok pr)
    (hn : ¬(pr.wbuf = [] ∧ pr.rlen = 0)) : traceAfterAccept c q = some (.ready q 0) := by
  simp only [traceAfterAccept, hp, if_neg hn]

theorem traceAfterAttempt_ok {q : Request} {plan : Option ScanPlan} {n : Nat} {bytes : List Byte} {k : Completion}
    (hf : finish q plan bytes = .ok k) :
    traceAfterAttempt maxRetries q plan n (.ok bytes) = some (.due (k.response n)) := by
  simp only [traceAfterAttempt, hf]

theorem traceAfterAttempt_retry {q : Request} {plan : Option ScanPlan} {n : Nat} {k : BusFaultKind}
    (h : n ≤ maxRetries) : traceAfterAttempt maxRetries q plan n (.fault k) = some (.waiting q n) :=
  if_pos h

theorem traceAfterAttempt_lastFault {q : Request} {plan : Option ScanPlan} {n : Nat} {k : BusFaultKind}
    (h : ¬ n ≤ maxRetries) :
    traceAfterAttempt maxRetries q plan n (.fault k) = some (.due (errorResponse (.bus k) n)) :=
  if_neg h

end

/-- Events appended to HIST are read on from where it stood. -/
theorem State.tracePos_of_append {s t : State} {es : List Event} {p : Option TracePos} (hh : t.hist = s.hist ++ es)
    (hc : t.constants = s.constants)
    (h : es.foldl (traceNext s.addr s.maxRetries s.retryDelay s.codes) s.tracePos = p) : t.tracePos = p := by
  obtain ⟨haddr, hmax, hdelay, hcodes⟩ := State.constants_eq_iff.1 hc
  rw [State.tracePos, hh, List.foldl_append, haddr, hmax, hdelay, hcodes]
  exact h

@[simp] theorem lastResponse_append (h : List Event) (e : Event) : lastResponse (h ++ [e]) = lastResponse [e] := by
  simp [lastResponse]

theorem BusOutcome.admitted_ok (n : Nat) (bytes : List Byte) :
    (BusOutcome.ok bytes).admitted n = .ok (if n = 0 then [] else bytes) := by
  by_cases h : n = 0 <;> simp [BusOutcome.admitted, h]

/-! ## The invariant in IDLE -/

/-- In IDLE the invariant speaks of the claim, of HIST and of RSP alone. -/
theorem State.Inv.of_idle {t : State} (hp : t.phase = .idle) (hc : t.claim = none) (ht : t.tracePos = some .idle)
    (hr : t.rsp = lastResponse t.hist) (hl : ∀ r, t.rsp = some r → r.legal t.maxRetries = true) : t.Inv where
  claimClosed := hc
  trace := by rw [ht, State.position, hp]
  rspIdle := fun _ => hr
  rspBusy := fun h => absurd hp h
  rspLegal := hl
  opMatches := fun h => absurd hp h
  prepared := fun h => absurd hp h
  somethingToSend := fun h => absurd hp h
  budget := fun h => absurd hp h
  backoffAttempted := fun h => by rw [hp] at h; cases h
  lastfAttempted := fun h => absurd hp h

/-- An operation that has just ended with the response that was due. -/
theorem State.Inv.of_ended {s t : State} {es : List Event} {r : Response} (hh : t.hist = s.hist ++ es ++ [.respond r])
    (hr : t.rsp = some r) (hp : t.phase = .idle) (hc : t.claim = none) (hconst : t.constants = s.constants)
    (hdue : es.foldl (traceNext s.addr s.maxRetries s.retryDelay s.codes) s.tracePos = some (.due r))
    (hl : r.legal s.maxRetries = true) : t.Inv := by
  obtain ⟨-, hmax, -, -⟩ := State.constants_eq_iff.1 hconst
  refine .of_idle hp hc (State.tracePos_of_append (hh.trans (List.append_assoc ..)) hconst ?_) ?_ ?_
  · rw [List.foldl_append, hdue, List.foldl_cons, traceNext_respond, List.foldl_nil]
  · rw [hr, hh, lastResponse_append]
    rfl
  · intro r' hr'
    obtain rfl : r = r' := Option.some.inj (hr.symm.trans hr')
    rwa [hmax]

/-- A codec with an empty history, as after a reset. -/
theorem State.Inv.of_fresh {t : State} (hp : t.phase = .idle) (hc : t.claim = none) (hr : t.rsp = none)
    (hh : t.hist = []) : t.Inv :=
  .of_idle hp hc (by rw [State.tracePos, hh]; rfl) (by rw [hr, hh]; rfl) (by simp [hr])

/-- Settles O49: nothing has happened yet. -/
theorem invariantAtReset : Obligations.InvariantAtReset := .of_fresh rfl rfl rfl rfl

/-! ## Each step keeps the invariant -/

section
variable {s : State} (hi : s.Inv)
include hi

/-- The presented requests, the outcomes to come, the lines and the device are not the invariant's. -/
theorem State.Inv.with_outside (port : List PortWord) (outs : List BusOutcome) (reset cycled : Bool) (d : Option Byte)
    (n : Nat) :
    ({ s with reqPort := port, busPort := outs, resetReq := reset, deviceCycled := cycled, devSetup := d, draws := n } :
      State).Inv where
  claimClosed := hi.claimClosed
  trace := hi.trace
  rspIdle := hi.rspIdle
  rspBusy := hi.rspBusy
  rspLegal := hi.rspLegal
  opMatches := hi.opMatches
  prepared := hi.prepared
  somethingToSend := hi.somethingToSend
  budget := hi.budget
  backoffAttempted := hi.backoffAttempted
  lastfAttempted := hi.lastfAttempted

theorem State.Inv.trace_idle (hp : s.phase = .idle) : s.tracePos = some .idle := by
  rw [hi.trace, State.position, hp]

theorem State.Inv.trace_attempt (hp : s.phase = .attempt) : s.tracePos = some (.ready s.req s.attempts) := by
  rw [hi.trace, State.position, hp]

theorem State.Inv.trace_backoff (hp : s.phase = .backoff) : s.tracePos = some (.waiting s.req s.attempts) := by
  rw [hi.trace, State.position, hp]

/-- R136, R206: a request that fails its checks. -/
theorem State.Inv.rejected (hp : s.phase = .idle) {q : Request} {k : Cause}
    (hq : prepare s.codes q = .error (.range k))
    (hk : k ∈ [Cause.chRange, .endRange, .startGtEnd, .countLow, .countOver, .byteDomain, .negLength]) :
    (s.rejected q k).Inv := by
  refine .of_ended (s := s) (es := [.accept q.op q]) (List.append_assoc s.hist [_] [_]).symm rfl rfl hi.claimClosed rfl
    ?_ (rangeResponse_legal s.maxRetries hk)
  rw [hi.trace_idle hp, List.foldl_cons, traceNext_accept]
  exact traceAfterAccept_error hq

/-- R132: an XFER with nothing to do. -/
theorem State.Inv.doneNothing (hp : s.phase = .idle) : s.doneNothing.Inv := by
  refine .of_ended (s := s) (es := [.accept (Request.xfer [] 0).op (.xfer [] 0)])
    (List.append_assoc s.hist [_] [_]).symm rfl rfl hi.claimClosed rfl ?_ (okResponse_legal .empty (Nat.zero_le _))
  rw [hi.trace_idle hp, List.foldl_cons, traceNext_accept]
  exact traceAfterAccept_nothing

/-- R136: a request that goes to the bus. -/
theorem State.Inv.accepted (hp : s.phase = .idle) {q : Request} {pr : Prepared} (hq : prepare s.codes q = .ok pr)
    (hn : ¬(pr.wbuf = [] ∧ pr.rlen = 0)) : (s.accepted q pr.plan pr.wbuf pr.rlen).Inv where
  claimClosed := hi.claimClosed
  trace := by
    refine State.tracePos_of_append (s := s) (es := [.accept q.op q]) rfl rfl ?_
    rw [hi.trace_idle hp, List.foldl_cons, traceNext_accept]
    exact traceAfterAccept_bus hq hn
  rspIdle := nofun
  rspBusy := fun _ => rfl
  rspLegal := nofun
  opMatches := fun _ => rfl
  prepared := fun _ => hq
  somethingToSend := fun _ => hn
  budget := fun _ => Nat.zero_le _
  backoffAttempted := nofun
  lastfAttempted := fun _ => by simp [State.accepted]

/-- R137: the attempt a step of the operation records. -/
theorem State.Inv.traceNext_attempt (hp : s.phase = .attempt) {out : BusOutcome} (ho : out.admitted s.rlen = out) :
    traceNext s.addr s.maxRetries s.retryDelay s.codes s.tracePos (.attempt s.addr s.wbuf s.rlen out) =
      traceAfterAttempt s.maxRetries s.req s.plan (s.attempts + 1) out := by
  rw [hi.trace_attempt hp]
  exact Machine.traceNext_attempt (hi.prepared (by simp [hp])) ho

/-- R138: an attempt that returned `Ok`. -/
theorem State.Inv.completed (hp : s.phase = .attempt) {got : List Byte} {c : Completion}
    (hg : (BusOutcome.ok got).admitted s.rlen = .ok got) (hf : finish s.req s.plan got = .ok c) :
    (s.completed got c).Inv := by
  have hne : s.phase ≠ .idle := by simp [hp]
  have hbudget := hi.budget hne
  refine .of_ended (s := s) (es := [.attempt s.addr s.wbuf s.rlen (.ok got)])
    (List.append_assoc s.hist [_] [_]).symm rfl rfl rfl rfl ?_
    (completion_legal (hi.prepared hne) hf (by omega) (Nat.succ_le_succ hbudget))
  exact (hi.traceNext_attempt hp hg).trans (traceAfterAttempt_ok hf)

/-- R134: a fault with a retry left. -/
theorem State.Inv.faulted_backoff (hp : s.phase = .attempt) (k : BusFaultKind) (hk : s.attempts + 1 ≤ s.maxRetries) :
    ({ s.faulted k with phase := .backoff } : State).Inv where
  claimClosed := hi.claimClosed
  trace := by
    refine State.tracePos_of_append (s := s) (es := [.attempt s.addr s.wbuf s.rlen (.fault k)]) rfl rfl ?_
    exact (hi.traceNext_attempt hp rfl).trans (traceAfterAttempt_retry hk)
  rspIdle := nofun
  rspBusy := fun _ => hi.rspBusy (by simp [hp])
  rspLegal := hi.rspLegal
  opMatches := fun _ => hi.opMatches (by simp [hp])
  prepared := fun _ => hi.prepared (by simp [hp])
  somethingToSend := fun _ => hi.somethingToSend (by simp [hp])
  budget := fun _ => hk
  backoffAttempted := fun _ => Nat.succ_pos _
  lastfAttempted := fun _ => by simp [State.faulted]

/-- R139: the fault of the last attempt. -/
theorem State.Inv.faulted_end (hp : s.phase = .attempt) (k : BusFaultKind) (hk : ¬ s.attempts + 1 ≤ s.maxRetries) :
    ((s.faulted k).endWith (.bus k)).Inv := by
  have hbudget := hi.budget (by simp [hp])
  have hspent : s.attempts + 1 = s.maxRetries + 1 := by omega
  refine .of_ended (s := s) (es := [.attempt s.addr s.wbuf s.rlen (.fault k)]) rfl rfl rfl hi.claimClosed rfl
    ((hi.traceNext_attempt hp rfl).trans (traceAfterAttempt_lastFault hk)) ?_
  exact (congrArg (fun n => (errorResponse (.bus k) n).legal s.maxRetries) hspent).trans
    (busResponse_legal k s.maxRetries)

/-- R135: the wait. -/
theorem State.Inv.waited (hp : s.phase = .backoff) :
    ({ s with hist := s.hist ++ [.wait s.retryDelay], phase := .attempt } : State).Inv where
  claimClosed := hi.claimClosed
  trace := by
    refine State.tracePos_of_append (s := s) (es := [.wait s.retryDelay]) rfl rfl ?_
    rw [hi.trace_backoff hp, List.foldl_cons, traceNext_wait]
    rfl
  rspIdle := nofun
  rspBusy := fun _ => hi.rspBusy (by simp [hp])
  rspLegal := hi.rspLegal
  opMatches := fun _ => hi.opMatches (by simp [hp])
  prepared := fun _ => hi.prepared (by simp [hp])
  somethingToSend := fun _ => hi.somethingToSend (by simp [hp])
  budget := fun _ => hi.budget (by simp [hp])
  backoffAttempted := nofun
  lastfAttempted := fun _ => hi.lastfAttempted (by simp [hp])

theorem State.Inv.attemptStep_next {t : State} (hp : s.phase = .attempt) (h : attemptStep s = .next t) : t.Inv := by
  have hne : s.phase ≠ .idle := by simp [hp]
  rcases attemptStep_cases hne (hi.prepared hne) with ⟨-, ha⟩ | ⟨bytes, got, c, -, hg, hf, ha⟩ | ⟨k, -, hk, ha⟩ |
    ⟨k, -, hk, ha⟩ <;> rw [ha] at h <;> cases h
  · exact hi
  · refine hi.completed hp ?_ hf
    rw [hg, ← BusOutcome.admitted_ok, BusOutcome.admitted_admitted]
  · exact hi.faulted_backoff hp k hk
  · exact hi.faulted_end hp k hk

theorem State.Inv.accept_next {t : State} {q : Request} (hp : s.phase = .idle) (h : accept q s = .next t) : t.Inv := by
  rcases accept_cases hp q with ⟨k, hq, hk, ha⟩ | ⟨-, ha⟩ | ⟨pr, hq, hn, ha⟩ <;> rw [ha] at h <;> cases h
  · exact hi.rejected hp hq hk
  · exact hi.doneNothing hp
  · exact hi.accepted hp hq hn

end

/-- Settles O50, by the cases of a step; with the bus free between steps no step is a claim's. -/
theorem invariantKept : Obligations.InvariantKept := by
  intro s t hi h
  rcases step_cases h with ⟨-, rfl⟩ | ⟨-, -, rfl⟩ | ⟨-, hp, ha⟩ | ⟨-, -, c, hc, -⟩ | ⟨-, hp, hb⟩ | ⟨-, -, -, rfl⟩ |
    ⟨-, hp, item, rest, q, -, -, ha⟩
  · exact .of_fresh (by simp) (by simp) (by simp) (by simp)
  · exact hi.with_outside s.reqPort s.busPort s.resetReq false none s.draws
  · exact hi.attemptStep_next hp ha
  · rw [hi.claimClosed] at hc
    cases hc
  · cases hb
    exact hi.waited hp
  · exact hi
  · have hpop : s.popRequest.Inv :=
      hi.with_outside s.reqPort.tail s.busPort s.resetReq s.deviceCycled s.devSetup s.draws
    exact hpop.accept_next hp ha

/-! ## What the invariant gives -/

/-- 95_test_vectors.md section 2.7. -/
def listedStatus : List Byte := [0x00, 0x11, 0x21, 0x31, 0x41, 0x51, 0x61, 0x71, 0x06, 0x0A, 0x0E, 0x83]

/-- The legal combinations of fields pack to the twelve values of section 2.7. -/
theorem Response.status_mem_of_legal {r : Response} {maxRetries : Nat} (h : r.legal maxRetries = true) :
    r.status ∈ listedStatus := by
  obtain ⟨kind, cause, busf, n, p⟩ := r
  simp only [Response.status]
  cases kind <;> simp only [Response.legal, Bool.and_eq_true, decide_eq_true_eq] at h
  case ok =>
    obtain ⟨⟨rfl, rfl⟩, -⟩ := h
    decide
  case range =>
    obtain ⟨⟨⟨hcause, rfl⟩, -⟩, -⟩ := h
    exact (by decide : ∀ k ∈ [Cause.chRange, .endRange, .startGtEnd, .countLow, .countOver, .byteDomain, .negLength],
      k.code ++ busfCode none ++ ErrorKind.range.code ∈ listedStatus) cause hcause
  case bus =>
    obtain ⟨⟨⟨rfl, hbusf⟩, -⟩, -⟩ := h
    obtain ⟨k, rfl⟩ := Option.isSome_iff_exists.1 hbusf
    cases k <;> decide
  case protocol =>
    obtain ⟨⟨⟨⟨rfl, rfl⟩, -⟩, -⟩, -⟩ := h
    decide

/-- Settles O19: STATUS is 0x00 or that of a legal response. -/
theorem onlyListedStatusValues : Obligations.OnlyListedStatusValues := by
  intro s hi
  cases hr : s.rsp with
  | none =>
    rw [State.status_of_rsp_none hr]
    decide
  | some r =>
    rw [State.status_of_rsp_some hr]
    exact Response.status_mem_of_legal (hi.rspLegal r hr)

/-- In IDLE a request is accepted, whatever it is. -/
theorem accept_ne_fault {s : State} (hp : s.phase = .idle) (q : Request) (f : Fault) : accept q s ≠ .fault f := by
  rcases accept_cases hp q with ⟨k, -, -, ha⟩ | ⟨-, ha⟩ | ⟨pr, -, -, ha⟩ <;> simp [ha]

/-- What the port decodes to is accepted or refused. -/
theorem exec_decoded_ne_fault {c : Codes} {item : PortWord} {i : Instr} (hd : decodeRequest c item = .ok i) {s : State}
    (hp : s.phase = .idle) (f : Fault) : exec i s ≠ .fault f := by
  obtain ⟨q, rfl⟩ | ⟨op, rfl⟩ := decodeRequest_cases hd
  · rw [exec_request]
    exact accept_ne_fault hp q f
  · nofun

/-- R37, R154: an attempt of the invariant has its registers, and their plan covers what its Finish takes. -/
theorem State.Inv.attemptStep_ne_fault {s : State} (hi : s.Inv) (hp : s.phase = .attempt) (f : Fault) :
    attemptStep s ≠ .fault f := by
  have hne : s.phase ≠ .idle := by simp [hp]
  rcases attemptStep_cases hne (hi.prepared hne) with ⟨-, ha⟩ | ⟨_, _, _, -, -, -, ha⟩ | ⟨_, -, -, ha⟩ |
    ⟨_, -, -, ha⟩ <;> simp [ha]

/-- Settles O51: each phase's step answers a state, but for a request that is refused. -/
theorem noStepFaults : Obligations.NoStepFaults := by
  intro s f hi
  by_cases hreset : s.resetReq = true
  · simp [step_reset hreset]
  by_cases hcycle : s.deviceCycled = true
  · simp [step_power (Bool.eq_false_of_not_eq_true hreset) hcycle]
  have hq : s.quiet := ⟨Bool.eq_false_of_not_eq_true hreset, Bool.eq_false_of_not_eq_true hcycle, hi.claimClosed⟩
  cases hp : s.phase with
  | attempt =>
    rw [step_attempt hq hp]
    exact hi.attemptStep_ne_fault hp f
  | backoff => simp [step_backoff hq.linesLow hp, backoffStep]
  | idle =>
    cases hport : s.reqPort with
    | nil => simp [step_idle hq.linesLow hp hport]
    | cons item rest =>
      rw [step_take hq.linesLow hp hport]
      cases hd : decodeRequest s.codes item with
      | error e => simp
      | ok i => exact exec_decoded_ne_fault hd (s := s.popRequest) hp f

/-- R152: an answer of another length than was asked for fails the length check of every Finish. -/
theorem finish_wrongLength {cs : Codes} {q : Request} {pr : Prepared} (hp : prepare cs q = .ok pr) {bytes : List Byte}
    (h0 : pr.rlen ≠ 0) (hl : bytes.length ≠ pr.rlen) :
    finish q pr.plan bytes = .ok (.error (.protocol .lenMismatch)) := by
  rcases prepare_ok_cases hp with ⟨start, count, p, hq, hplan, -, hr, -⟩ | ⟨ref, clk, pol, rst, rfl, rfl⟩ |
    ⟨w, n, rfl, -, hn, rfl⟩
  · rw [hr] at hl
    cases q with
    | setup | xfer => cases hq
    | readSingle ch mode => simp only [finish, finishReadSingle, hplan, decodeResult_mismatch hl]
    | readRange a b mode => simp only [finish, finishReadRange, hplan, decodeResult_mismatch hl]
    | readMultiple a b mode => simp only [finish, finishReadMultiple, hplan, decodeResult_mismatch hl]
  · exact absurd rfl h0
  · have hn0 : n ≠ 0 := fun h => h0 (by simp [h])
    have hln : (bytes.length : Int) ≠ n := fun h => hl (by simp [← h])
    simp only [finish, finishXfer, if_neg hn0, if_pos hln]

/-- Settles O36: Finish's length check fails, and no other attempt follows an `Ok` outcome. -/
theorem wrongLengthIsProtocolError : Obligations.WrongLengthIsProtocolError := by
  intro s bytes more hi hq hp hb h0 hl
  have hne : s.phase ≠ .idle := by simp [hp]
  have hf := finish_wrongLength (hi.prepared hne) h0 hl
  have ha := (attemptStep_ok_next_iff hne hb).2 ⟨_, by rwa [if_neg h0], rfl⟩
  exact ⟨_, (step_attempt hq hp).trans ha, rfl, rfl, rfl⟩

end Sys2Proof.Machine
end

section
/-! PROOFS. The accept step (spec/43_bus_transaction.md, spec/45_operations.md): a request that goes to the bus, one
that ends at once, and what neither touches. -/

namespace Sys2Proof.Machine

/-! ## The two ends of an accept step -/

theorem exec_accepted {s : State} (h : s.phase = .idle) {q : Request} {pr : Prepared}
    (hp : prepare s.codes q = .ok pr) (hn : ¬(pr.wbuf = [] ∧ pr.rlen = 0)) :
    exec q.instr s = .next (s.accepted q pr.plan pr.wbuf pr.rlen) :=
  (exec_request q s).trans (accept_bus h hp hn)

theorem exec_rejected {s : State} (h : s.phase = .idle) {q : Request} {k : Cause}
    (hp : prepare s.codes q = .error (.range k)) : exec q.instr s = .next (s.rejected q k) :=
  (exec_request q s).trans (accept_error h hp)

/-! ## Requests that pass their checks -/

/-- Settles O20: Prepare of SETUP cannot fail and gives one byte to write. -/
theorem setupAccepted : Obligations.SetupAccepted := fun _ ref clk pol rst h =>
  exec_accepted h (q := .setup ref clk pol rst) rfl (by simp)

/-- R162, R165, R168: a read whose plan ends at the channel `last`. -/
theorem prepareRead_plan (c : Codes) (mode : InputMode) {plan : Except Error ScanPlan} {p : ScanPlan} {last : Int}
    (hp : plan = .ok p) (hlast : (p.endChannel : Int) = last) (h11 : last ≤ 11) :
    prepareRead c mode plan =
      .ok { plan := some p,
            wbuf := [packConfig (c.scanCode p.scanMode) (BitVec.ofInt 4 last) (c.modeCode mode)],
            rlen := 2 * p.wordCount } := by
  rw [hp, prepareRead_some (by omega), ← hlast]
  rfl

/-- Settles O21: each read's Prepare is its planner and the config byte of the plan's end channel. -/
theorem readsAccepted : Obligations.ReadsAccepted := by
  refine ⟨fun s ch mode h h0 h11 => ?_, fun s start stop mode h h0 hle h11 => ?_,
    fun s start count mode h h0 h1 h11 => ?_⟩
  · exact exec_accepted h (q := .readSingle ch mode)
      (prepareRead_plan s.codes mode (planSingle_eq_only h0 h11) (Int.toNat_of_nonneg h0) h11) (by simp)
  · obtain ⟨p, hp⟩ := planBank_some h0 hle h11
    obtain ⟨-, -, -, hlast, -⟩ := planBank_ok hp
    exact ⟨p, hp, exec_accepted h (q := .readRange start stop mode) (prepareRead_plan s.codes mode hp hlast h11)
      (by simp)⟩
  · obtain ⟨p, hp⟩ := planCount_some h0 h1 h11
    obtain ⟨-, -, -, hbank⟩ := planCount_ok hp
    obtain ⟨-, -, -, hlast, -⟩ := planBank_ok hbank
    exact ⟨p, hp, exec_accepted h (q := .readMultiple start count mode)
      (prepareRead_plan s.codes mode hp hlast h11) (by simp)⟩

/-- R131, R171: the caller's bytes, once they pass the checks. -/
theorem prepare_xfer (c : Codes) {w : List Int} {n : Int} (hw : ∀ x ∈ w, 0 ≤ x ∧ x ≤ 255) (hn : 0 ≤ n) :
    prepare c (.xfer w n) = .ok { plan := none, wbuf := w.map (BitVec.ofInt 8), rlen := n.toNat } := by
  have hc : checkTransfer w n = .ok (w.map narrowByte, n.toNat) := by
    simp [checkTransfer, (all_byteOk w).2 hw, hn]
  simp only [prepare, prepareXfer, hc]
  rfl

/-- R132: a transfer with a byte to write or to read has something to do. -/
theorem xfer_something {w : List Int} {n : Int} (hn : 0 ≤ n) (h : w ≠ [] ∨ n ≠ 0) :
    ¬(w.map (BitVec.ofInt 8) = [] ∧ n.toNat = 0) := by
  rw [List.map_eq_nil_iff]
  rintro ⟨hw, hn0⟩
  rcases h with h | h
  · exact h hw
  · omega

/-- Settles O22: Prepare hands the bytes and the length on; with nothing to do, Finish answers at once. -/
theorem xferAccepted : Obligations.XferAccepted :=
  ⟨fun s w n h hw hn hsome => exec_accepted h (q := .xfer w n) (prepare_xfer s.codes hw hn) (xfer_something hn hsome),
    fun s h => (exec_request (.xfer [] 0) s).trans (accept_nothing h)⟩

/-! ## Requests that fail their checks -/

/-- R131: a bad byte comes before a bad length. -/
theorem prepare_xfer_byteDomain (c : Codes) {w : List Int} {n : Int} (h : ∃ x ∈ w, x < 0 ∨ 255 < x) :
    prepare c (.xfer w n) = .error (.range .byteDomain) := by
  have hw : w.all byteOk = false := by
    obtain ⟨x, hx, hbad⟩ := h
    rw [← Bool.not_eq_true, all_byteOk]
    intro hall
    have := hall x hx
    omega
  simp only [prepare, prepareXfer, checkTransfer, hw, if_true]

theorem prepare_xfer_negLength (c : Codes) {w : List Int} {n : Int} (hw : ∀ x ∈ w, 0 ≤ x ∧ x ≤ 255) (hn : n < 0) :
    prepare c (.xfer w n) = .error (.range .negLength) := by
  simp [prepare, prepareXfer, checkTransfer, (all_byteOk w).2 hw, hn]

/-- R170: a read whose planner fails fails with the planner's error. -/
theorem prepareRead_error (c : Codes) (mode : InputMode) {plan : Except Error ScanPlan} {e : Error}
    (h : plan = .error e) : prepareRead c mode plan = .error e := by
  rw [h]
  rfl

/-- Settles O23: the planner's and the transfer's checks in their order, each ending the accept step. -/
theorem rangeErrorsEndAtAccept : Obligations.RangeErrorsEndAtAccept := by
  refine ⟨fun s ch mode hs h => ?_, fun s start stop mode hs => ⟨fun h => ?_, fun h0 h11 h => ?_, fun h11 h0 h => ?_⟩,
    fun s start count mode hs => ⟨fun h => ?_, fun h0 h11 h => ?_, fun h0 h11 h1 h => ?_⟩,
    fun s w n hs => ⟨fun h => ?_, fun hw hn => ?_⟩⟩
  · exact exec_rejected hs (q := .readSingle ch mode) (prepareRead_error _ _ (planSingle_eq_chRange h))
  · exact exec_rejected hs (q := .readRange start stop mode) (prepareRead_error _ _ (planBank_eq_chRange stop h))
  · exact exec_rejected hs (q := .readRange start stop mode) (prepareRead_error _ _ (planBank_eq_endRange h0 h11 h))
  · exact exec_rejected hs (q := .readRange start stop mode) (prepareRead_error _ _ (planBank_eq_startGtEnd h0 h11 h))
  · exact exec_rejected hs (q := .readMultiple start count mode) (prepareRead_error _ _ (planCount_eq_chRange count h))
  · exact exec_rejected hs (q := .readMultiple start count mode)
      (prepareRead_error _ _ (planCount_eq_countLow h0 h11 h))
  · exact exec_rejected hs (q := .readMultiple start count mode)
      (prepareRead_error _ _ (planCount_eq_countOver h0 h11 h1 h))
  · exact exec_rejected hs (q := .xfer w n) (prepare_xfer_byteDomain s.codes h)
  · exact exec_rejected hs (q := .xfer w n) (prepare_xfer_negLength s.codes hw hn)

/-! ## What an accept step leaves -/

/-- All but the constants that an accept step leaves: the device and its draws, the claim, the ports and the lines. -/
def State.surroundings (s : State) :
    Option Byte × Nat × Option Claim × List PortWord × List BusOutcome × Bool × Bool :=
  (s.devSetup, s.draws, s.claim, s.reqPort, s.busPort, s.resetReq, s.deviceCycled)

theorem State.surroundings_eq_iff {s t : State} :
    t.surroundings = s.surroundings ↔
      t.devSetup = s.devSetup ∧ t.draws = s.draws ∧ t.claim = s.claim ∧ t.reqPort = s.reqPort ∧
      t.busPort = s.busPort ∧ t.resetReq = s.resetReq ∧ t.deviceCycled = s.deviceCycled := by
  simp [State.surroundings]

section
variable {q : Request} {s t : State} (hi : s.phase = .idle) (h : accept q s = .next t)
include hi h

theorem accept_surroundings : t.surroundings = s.surroundings := by
  rcases accept_cases hi q with ⟨k, -, -, ha⟩ | ⟨-, ha⟩ | ⟨pr, -, -, ha⟩ <;> rw [ha] at h <;> cases h <;> rfl

/-- R32: an accept step records itself, and the response where it ends the operation. -/
theorem accept_hist : ∃ more, t.hist = s.hist ++ more := by
  rcases accept_cases hi q with ⟨k, -, -, ha⟩ | ⟨-, ha⟩ | ⟨pr, -, -, ha⟩ <;> rw [ha] at h <;> cases h <;>
    exact ⟨_, rfl⟩

/-- R136: a request that fails its checks has nothing to latch but itself. -/
theorem accept_error_registers {e : Error} (hp : prepare s.codes q = .error e) :
    t.plan = s.plan ∧ t.wbuf = s.wbuf ∧ t.rlen = s.rlen := by
  obtain ⟨k, rfl, -⟩ := prepare_error hp
  rw [accept_error hi hp] at h
  cases h
  exact ⟨rfl, rfl, rfl⟩

end

/-- Settles O25: a busy codec is left as it is, and in IDLE the accept step writes its registers alone. -/
theorem requestFrame : Obligations.RequestFrame := by
  intro s t q h
  rw [exec_request] at h
  by_cases hi : s.phase = .idle
  · obtain ⟨haddr, hmax, hdelay, hcodes⟩ := State.constants_eq_iff.1 (accept_constants hi h)
    obtain ⟨hdev, hdraws, hclaim, hport, hbus, hreset, hcycle⟩ :=
      State.surroundings_eq_iff.1 (accept_surroundings hi h)
    exact ⟨haddr, hmax, hdelay, hcodes, hdev, hclaim, hport, hbus, hreset, hcycle, hdraws, accept_hist hi h,
      fun e => accept_error_registers hi h⟩
  · rw [accept_busy hi] at h
    cases h
    exact ⟨rfl, rfl, rfl, rfl, rfl, rfl, rfl, rfl, rfl, rfl, rfl, ⟨[], (List.append_nil _).symm⟩, fun _ _ =>
      ⟨rfl, rfl, rfl⟩⟩

end Sys2Proof.Machine
end

section
/-! PROOFS. The steps of an operation in flight (spec/43_bus_transaction.md, spec/70_reset_and_hazards.md) and the
external events: each step's next state, and what it leaves. -/

namespace Sys2Proof.Machine

/-! ## Every step of an operation in flight -/

/-- R137: everything the ATTEMPT step can answer a next state with. -/
theorem attemptStep_next_cases {s t : State} (hne : s.phase ≠ .idle) (h : attemptStep s = .next t) :
    (s.busPort = [] ∧ t = s) ∨
    (∃ bytes c, s.busPort = .ok bytes :: s.busPort.tail ∧
      finish s.req s.plan (if s.rlen = 0 then [] else bytes) = .ok c ∧
      t = s.completed (if s.rlen = 0 then [] else bytes) c) ∨
    (∃ k, s.busPort = .fault k :: s.busPort.tail ∧ s.attempts + 1 ≤ s.maxRetries ∧
      t = { s.faulted k with phase := .backoff }) ∨
    (∃ k, s.busPort = .fault k :: s.busPort.tail ∧ ¬ s.attempts + 1 ≤ s.maxRetries ∧
      t = (s.faulted k).endWith (.bus k)) := by
  match hb : s.busPort with
  | [] =>
    rw [attemptStep_wait hb] at h
    cases h
    exact .inl ⟨rfl, rfl⟩
  | .ok bytes :: more =>
    obtain ⟨c, hf, rfl⟩ := (attemptStep_ok_next_iff hne hb).1 h
    exact .inr (.inl ⟨bytes, c, rfl, hf, rfl⟩)
  | .fault k :: more =>
    rw [attemptStep_fault hne hb] at h
    split at h <;> cases h
    · exact .inr (.inr (.inl ⟨k, rfl, ‹_›, rfl⟩))
    · exact .inr (.inr (.inr ⟨k, rfl, ‹_›, rfl⟩))

/-- A quiet busy step is the ATTEMPT step or the BACKOFF step. -/
theorem step_busy {s : State} (hq : s.quiet) (hne : s.phase ≠ .idle) :
    (s.phase = .attempt ∧ step s = attemptStep s) ∨
    (s.phase = .backoff ∧ step s = .next { s with hist := s.hist ++ [.wait s.retryDelay], phase := .attempt }) := by
  cases hp : s.phase with
  | idle => exact absurd hp hne
  | attempt => exact .inl ⟨rfl, step_attempt hq hp⟩
  | backoff => exact .inr ⟨rfl, step_backoff hq.linesLow hp⟩

/-! ## The attempt -/

/-- Settles O26: the ATTEMPT step's retry, with the draw among the candidates. -/
theorem faultWithRetryLeftBacksOff : Obligations.FaultWithRetryLeftBacksOff := by
  intro s k more hq hp hb hk
  refine ⟨_, (s.drawSetup s.wbuf).draws, ?_, s.drawSetup_mem s.wbuf, fun h => by rw [State.drawSetup_none h]⟩
  rw [step_attempt hq hp, attemptStep_fault (by simp [hp]) hb, if_pos hk]
  simp [State.faulted, hb]

/-- Settles O27: the ATTEMPT step's end with the budget spent. -/
theorem lastFaultSurfaces : Obligations.LastFaultSurfaces := by
  intro s k more hq hp hb hk
  have hstep : step s = .next ((s.faulted k).endWith (.bus k)) := by
    rw [step_attempt hq hp, attemptStep_fault (by simp [hp]) hb, if_neg (by omega)]
  refine ⟨_, hstep, rfl, ?_, rfl, ?_, ?_, ?_, s.drawSetup_mem s.wbuf⟩
  · simp [State.faulted, errorResponse, Error.kind, Error.cause, Error.busf, hk]
  · simp [State.faulted, hk]
  · simp [State.faulted, hb]
  · simp [State.faulted, errorResponse, Error.kind, Error.cause, Error.busf, hk]

/-- Settles O28: the BACKOFF step. -/
theorem backoffWaitsThenRetries : Obligations.BackoffWaitsThenRetries := fun _ hq hp =>
  step_backoff hq.linesLow hp

/-- Settles O29: the ATTEMPT step waits for an outcome. -/
theorem unansweredAttemptHolds : Obligations.UnansweredAttemptHolds := fun _ hq hp hb =>
  (step_attempt hq hp).trans (attemptStep_wait hb)

/-- Settles O30: the ATTEMPT step's completion. -/
theorem okOutcomeCompletes : Obligations.OkOutcomeCompletes := by
  rintro s bytes got more c hq hp hb rfl hf
  rw [step_attempt hq hp, (attemptStep_ok_next_iff (by simp [hp]) hb).2 ⟨c, hf, rfl⟩]
  simp [State.completed, hb]

/-! ## What an operation in flight leaves -/

/-- Settles O53: no step of an operation writes what its accept step latched. -/
theorem latchedRegistersStay : Obligations.LatchedRegistersStay := by
  intro s t hq hne h
  rcases step_busy hq hne with ⟨-, hs⟩ | ⟨-, hs⟩ <;> rw [hs] at h
  · rcases attemptStep_next_cases hne h with ⟨-, rfl⟩ | ⟨bytes, c, -, -, rfl⟩ | ⟨k, -, -, rfl⟩ | ⟨k, -, -, rfl⟩ <;>
      exact ⟨rfl, rfl, rfl, rfl, rfl⟩
  · cases h
    exact ⟨rfl, rfl, rfl, rfl, rfl⟩

/-- R137, R221: an attempt delivers its bytes, or leaves their delivery uncertain. -/
theorem attemptStep_devSetup {s t : State} (hne : s.phase ≠ .idle) (h : attemptStep s = .next t) :
    t.devSetup = s.devSetup ∨ t.devSetup = lastSetup s.devSetup s.wbuf ∨
      t.devSetup = (s.drawSetup s.wbuf).devSetup := by
  rcases attemptStep_next_cases hne h with ⟨-, rfl⟩ | ⟨bytes, c, -, -, rfl⟩ | ⟨k, -, -, rfl⟩ | ⟨k, -, -, rfl⟩
  · exact .inl rfl
  · exact .inr (.inl rfl)
  · exact .inr (.inr rfl)
  · exact .inr (.inr rfl)

section
variable {s t : State} (hq : s.quiet) (hne : s.phase ≠ .idle) (h : step s = .next t)
include hq hne h

theorem step_devSetup_mem : t.devSetup ∈ setupCandidates s.devSetup s.wbuf := by
  rcases step_busy hq hne with ⟨-, hs⟩ | ⟨-, hs⟩ <;> rw [hs] at h
  · rcases attemptStep_devSetup hne h with hd | hd | hd <;> rw [hd]
    · exact List.mem_cons_self
    · exact lastSetup_mem ..
    · exact s.drawSetup_mem s.wbuf
  · cases h
    exact List.mem_cons_self

theorem step_devSetup_of_no_setupByte (hw : ∀ b ∈ s.wbuf, isSetupByte b = false) : t.devSetup = s.devSetup := by
  have hmem := step_devSetup_mem hq hne h
  rw [setupCandidates_none hw] at hmem
  exact List.mem_singleton.1 hmem

end

/-- R162, R165, R168: a read writes its config byte and no setup byte. -/
theorem prepare_wbuf_of_window {c : Codes} {q : Request} {pr : Prepared} (hp : prepare c q = .ok pr) {x : Nat × Nat}
    (hx : q.window = some x) : ∀ b ∈ pr.wbuf, isSetupByte b = false := by
  rcases prepare_ok_cases hp with ⟨_, _, _, -, -, -, -, -, b, hb, hcfg⟩ | ⟨_, _, _, _, rfl, -⟩ | ⟨_, _, rfl, -⟩
  · simpa [hb] using hcfg
  · cases hx
  · cases hx

/-- Settles O57: the device's register is one of its candidates, of which a write list without setup bytes, as a read's
is, leaves one. -/
theorem deviceChangesOnlyBySetupBytes : Obligations.DeviceChangesOnlyBySetupBytes := by
  intro s t hq hne h
  refine ⟨step_devSetup_mem hq hne h, step_devSetup_of_no_setupByte hq hne h, fun hi hread => ?_⟩
  obtain ⟨x, hx⟩ : ∃ x, s.req.window = some x := by
    rcases hread with ⟨_, _, hreq⟩ | ⟨_, _, _, hreq⟩ | ⟨_, _, _, hreq⟩ <;> rw [hreq] <;> exact ⟨_, rfl⟩
  exact step_devSetup_of_no_setupByte hq hne h (prepare_wbuf_of_window (hi.prepared hne) hx)

/-- Settles O58: waiting records its event, and an accept step leaves the surroundings of the codec. -/
theorem onlyAnAttemptTouchesTheDevice : Obligations.OnlyAnAttemptTouchesTheDevice := by
  intro s t hq hna h
  rcases step_cases h with ⟨hr, -⟩ | ⟨-, hc, -⟩ | ⟨-, hp, -⟩ | ⟨-, hp, -⟩ | ⟨-, -, hb⟩ | ⟨-, -, -, rfl⟩ |
    ⟨-, hp, item, rest, q, -, -, ha⟩
  · simp [hq.1] at hr
  · simp [hq.2.1] at hc
  · exact absurd hp hna
  · exact absurd hp hna
  · cases hb
    exact ⟨rfl, rfl, rfl, hq.claimNone⟩
  · exact ⟨rfl, rfl, rfl, hq.claimNone⟩
  · obtain ⟨hdev, hdraws, hclaim, -, hbus, -, -⟩ :=
      State.surroundings_eq_iff.1 (accept_surroundings (s := s.popRequest) hp ha)
    exact ⟨hdev, hdraws, hbus, hclaim.trans hq.claimNone⟩

/-- R32: an attempt records itself, and the response where it ends the operation. -/
theorem attemptStep_hist {s t : State} (hne : s.phase ≠ .idle) (h : attemptStep s = .next t) :
    ∃ more, t.hist = s.hist ++ more := by
  rcases attemptStep_next_cases hne h with ⟨-, rfl⟩ | ⟨bytes, c, -, -, rfl⟩ | ⟨k, -, -, rfl⟩ | ⟨k, -, -, rfl⟩
  · exact ⟨[], (List.append_nil _).symm⟩
  · exact ⟨_, rfl⟩
  · exact ⟨_, rfl⟩
  · exact ⟨_, List.append_assoc ..⟩

/-- Settles O54, by the cases of a step; a reset alone writes HIST otherwise. -/
theorem historyIsAppended : Obligations.HistoryIsAppended := by
  intro s t h hreset
  rcases step_cases h with ⟨hr, -⟩ | ⟨-, -, rfl⟩ | ⟨-, hp, ha⟩ | ⟨-, -, c, -, ⟨d, c', rfl⟩ | hc⟩ | ⟨-, -, hb⟩ |
    ⟨-, -, -, rfl⟩ | ⟨-, hp, item, rest, q, -, -, ha⟩
  · simp [hreset] at hr
  · exact ⟨[], (List.append_nil _).symm⟩
  · exact attemptStep_hist (by simp [hp]) ha
  · exact ⟨[], (List.append_nil _).symm⟩
  · obtain ⟨r, rfl⟩ := State.complete_next hc
    exact ⟨_, rfl⟩
  · cases hb
    exact ⟨_, rfl⟩
  · exact ⟨[], (List.append_nil _).symm⟩
  · exact accept_hist (s := s.popRequest) hp ha

/-! ## The external events -/

/-- Settles O45: the reset state's fields. -/
theorem resetValues : Obligations.ResetValues := ⟨rfl, rfl, rfl, rfl, rfl, rfl, rfl, rfl⟩

/-- R241: in IDLE there is nothing to abandon. -/
theorem State.abandon_idle {s : State} (h : s.phase = .idle) : s.abandon = s := if_pos h

/-- Settles O46: the reset's own writes, and the draw of an operation it abandons. -/
theorem codecResetStep : Obligations.CodecResetStep := by
  intro s h
  have hdev : s.codecReset.devSetup = s.abandon.devSetup := s.codecReset_devSetup
  refine ⟨_, step_reset h, by simp, by simp, by simp, by simp, by simp, by simp, by simp, by simp, by simp, by simp,
    by simp, by simp, fun hi => ?_, fun _ => ?_, fun hw => ?_⟩
  · rw [hdev, State.abandon_idle hi]
  · rw [hdev]
    exact s.abandon_mem
  · have hmem := s.abandon_mem
    rw [setupCandidates_none hw, ← hdev] at hmem
    exact List.mem_singleton.1 hmem

/-- Settles O47: the power cycle's own writes. -/
theorem powerCycleStep : Obligations.PowerCycleStep := fun _ => step_power

/-! ## The instruction a step runs -/

/-- Settles O48: in IDLE the oldest request, in a claim the next item on the wire. -/
theorem stepRunsTheDecodedInstruction : Obligations.StepRunsTheDecodedInstruction := by
  refine ⟨fun s item rest i ⟨hq, hp, hport⟩ hd => ?_, fun s c x more hr hc hp hclaim hpend =>
    step_wire ⟨hr, hc⟩ hp hclaim hpend⟩
  have hpop : s.popRequest = { s with reqPort := rest } := by rw [State.popRequest, hport, List.tail_cons]
  rw [step_take hq.linesLow hp hport, hd, hpop]

end Sys2Proof.Machine
end

section
/-! PROOFS. The bus claim (spec/20_memory.md): the wire formats as instructions, and a successful attempt as its claim
run item by item. -/

namespace Sys2Proof.Machine

/-! ## The wire formats -/

theorem exec_configInstr (cs : BitVec 4) (mode : BitVec 1) (scan : ScanMode) (s : State) :
    exec (configInstr cs mode scan) s = .next (s.deliverByte (packConfig (s.codes.scanCode scan) cs mode)) := by
  cases scan <;> rfl

/-- Settles O41: a delivery of a byte with bit 7 set. -/
theorem setupByteIsRetained : Obligations.SetupByteIsRetained := fun _ _ _ _ _ _ =>
  ⟨fun _ hc => congrArg Host.Outcome.next (State.deliverByte_setup (isSetupByte_packSetup ..) hc),
    fun hc => congrArg Host.Outcome.next (State.deliverByte_free _ hc)⟩

/-- Settles O42: a delivery of a byte with bit 7 clear. -/
theorem configByteSelectsInItsClaim : Obligations.ConfigByteSelectsInItsClaim := by
  intro s cs mode i scan h
  obtain rfl : i = configInstr cs mode scan := by
    rcases h with ⟨rfl, rfl⟩ | ⟨rfl, rfl⟩ | ⟨rfl, rfl⟩ | ⟨rfl, rfl⟩ <;> rfl
  rw [exec_configInstr]
  exact ⟨fun _ hc => congrArg Host.Outcome.next (State.deliverByte_config (isSetupByte_packConfig ..) hc),
    fun hc => congrArg Host.Outcome.next (State.deliverByte_free _ hc)⟩

/-- Settles O43: a reception, whose padding UNPACK ignores. -/
theorem resultWordUnpacks : Obligations.ResultWordUnpacks := by
  refine fun s pad high low => ⟨fun c hc => congrArg Host.Outcome.next ?_, fun hc =>
    congrArg Host.Outcome.next (State.receiveWord_free _ _ hc)⟩
  rw [State.receiveWord_eq _ _ hc, unpack_append]

/-! ## One item on the wire -/

/-- R57, R56: what one item does in the claim in progress. -/
def State.passItem : WireItem → State → State
  | .command b, s => s.deliverByte b
  | .word hi lo, s => s.receiveWord hi lo

/-- R72: with injective codes, a command byte's instruction delivers that byte. -/
theorem exec_decodeCommand {s : State} (hw : s.codes.wf = true) (b : Byte) :
    exec (decodeCommand s.codes b) s = .next (s.deliverByte b) := by
  cases h : isSetupByte b with
  | true =>
    rw [decodeCommand_of_bit7_set s.codes h]
    exact congrArg (fun b => Host.Outcome.next (s.deliverByte b)) (packSetup_fields h)
  | false =>
    rw [decodeCommand_of_bit7_clear s.codes h, exec_configInstr, Codes.scanCode_scanOf hw, packConfig_fields h]

/-- R85: a result word's instruction receives its two bytes. -/
theorem exec_decodeWire_word (c : Codes) (hi lo : Byte) (s : State) :
    exec (decodeWire c (.word hi lo)) s = .next (s.receiveWord hi lo) :=
  congrArg (fun b => Host.Outcome.next (s.receiveWord b lo)) (nibbles_append hi)

theorem exec_decodeWire {s : State} (hw : s.codes.wf = true) (x : WireItem) :
    exec (decodeWire s.codes x) s = .next (s.passItem x) := by
  cases x with
  | command b => exact exec_decodeCommand hw b
  | word hi lo => exact exec_decodeWire_word s.codes hi lo s

/-! ## The instructions of a claim, run one after another -/

theorem runInstrs_cons {i : Instr} {s t : State} (h : exec i s = .next t) (rest : List Instr) :
    runInstrs (i :: rest) s = runInstrs rest t := by
  simp only [runInstrs, h]

theorem runInstrs_decodeCommand (w : List Byte) {s : State} (hw : s.codes.wf = true) :
    runInstrs (w.map (decodeCommand s.codes)) s = .next (s.deliver w) := by
  induction w generalizing s with
  | nil => rfl
  | cons b w ih =>
    have hcodes : (s.deliverByte b).codes = s.codes := s.deliverByte_codes b
    rw [List.map_cons, runInstrs_cons (exec_decodeCommand hw b), ← hcodes, ih (hcodes ▸ hw)]
    rfl

theorem runInstrs_resultInstrs (bytes : List Byte) (s : State) :
    runInstrs (resultInstrs bytes) s = .next (s.receive bytes) := by
  induction bytes using resultInstrs.induct generalizing s with
  | case1 hi lo rest ih =>
    exact (runInstrs_cons (exec_decodeWire_word s.codes hi lo s) _).trans (ih _)
  | case2 bytes hne =>
    match bytes, hne with
    | [], _ => rfl
    | [_], _ => rfl
    | hi :: lo :: rest, hne => exact absurd rfl (hne hi lo rest)

/-- Settles O44: the command bytes, the result words, and the net effect of both in a claim. -/
theorem claimIsMadeOfWireInstructions : Obligations.ClaimIsMadeOfWireInstructions := by
  refine fun s w bytes hw => ⟨runInstrs_decodeCommand w hw, runInstrs_resultInstrs bytes s, fun c hc =>
    ⟨State.receive_claim bytes s c hc, ?_⟩, State.runClaim_eq w bytes s⟩
  obtain ⟨sel, hs⟩ := State.deliver_eq w s c hc
  rw [hs]

/-! ## An attempt item by item -/

/-- The command bytes among the items on the wire. -/
def commandBytes : List WireItem → List Byte
  | [] => []
  | .command b :: rest => b :: commandBytes rest
  | .word _ _ :: rest => commandBytes rest

theorem commandBytes_wordItems (bytes : List Byte) : commandBytes (wordItems bytes) = [] := by
  induction bytes using wordItems.induct with
  | case1 hi lo rest ih => exact ih
  | case2 bytes hne =>
    match bytes, hne with
    | [], _ => rfl
    | [_], _ => rfl
    | hi :: lo :: rest, hne => exact absurd rfl (hne hi lo rest)

theorem commandBytes_claimItems (w bytes : List Byte) : commandBytes (claimItems w bytes) = w := by
  induction w with
  | nil => exact commandBytes_wordItems bytes
  | cons b w ih => exact congrArg (b :: ·) ih

theorem lastSetup_singleton (old : Option Byte) (b : Byte) :
    lastSetup old [b] = if isSetupByte b then some b else old := by
  rw [lastSetup_cons]
  rfl

theorem lastSetup_commandBytes_cons (old : Option Byte) (x : WireItem) (items : List WireItem) :
    lastSetup (lastSetup old (commandBytes [x])) (commandBytes items) = lastSetup old (commandBytes (x :: items)) := by
  cases x with
  | command b => rw [commandBytes, commandBytes, commandBytes, lastSetup_singleton, lastSetup_cons]
  | word hi lo => rfl

/-- The inside of an attempt: a claim in progress, and what the device holds by then. -/
def State.inClaim (d : Option Byte) (c : Claim) (s : State) : State := { s with devSetup := d, claim := some c }

/-- An item passed leaves the claim in progress, with the rest of its items to pass. -/
theorem State.passItem_inClaim (x : WireItem) (d : Option Byte) (c : Claim) (s : State) :
    ∃ c' : Claim, c'.pending = c.pending ∧ c'.got = c.got ∧
      (s.inClaim d c).passItem x = s.inClaim (lastSetup d (commandBytes [x])) c' := by
  cases x with
  | command b =>
    refine ⟨{ c with selected := if isSetupByte b then c.selected else some b }, rfl, rfl,
      (State.deliverByte_eq b (s := s.inClaim d c) rfl).trans ?_⟩
    rw [commandBytes, commandBytes, lastSetup_singleton]
    rfl
  | word hi lo =>
    exact ⟨{ c with words := c.words ++ [unpack hi lo] }, rfl, rfl, State.receiveWord_eq hi lo (s := s.inClaim d c) rfl⟩

section
variable {s : State} (hl : s.linesLow) (hp : s.phase = .attempt) (hw : s.codes.wf = true)
include hl hp hw

theorem step_inClaim {c : Claim} {x : WireItem} {more : List WireItem} (hpend : c.pending = x :: more)
    (d : Option Byte) : ∃ c' : Claim, c'.pending = more ∧ c'.got = c.got ∧
      step (s.inClaim d c) = .next (s.inClaim (lastSetup d (commandBytes [x])) c') := by
  obtain ⟨c', hpend', hgot', hpass⟩ := State.passItem_inClaim x d { c with pending := more } s
  have hx := exec_decodeWire (s := s.inClaim d { c with pending := more }) hw x
  rw [hpass] at hx
  exact ⟨c', hpend', hgot', (step_wire (s := s.inClaim d c) hl hp rfl hpend).trans hx⟩

/-- R55: the rest of a claim, one item a step, and the completion in the step after the last one. -/
theorem core_run_inClaim (items : List WireItem) {c : Claim} (hpend : c.pending = items) (d : Option Byte) :
    Sys2Proof.core.run (items.length + 1) (s.inClaim d c) =
      State.complete s.req s.plan c.got
        { s with devSetup := lastSetup d (commandBytes items), claim := none } := by
  induction items generalizing d c with
  | nil => exact (core_run_one _).trans (step_endClaim (s := s.inClaim d c) hl hp rfl hpend)
  | cons x items ih =>
    obtain ⟨c', hpend', hgot', hx⟩ := step_inClaim hl hp hw hpend d
    rw [List.length_cons, core_run_succ _ hx, ih hpend', hgot', lastSetup_commandBytes_cons]

end

/-- Settles O59: the claim's items deliver the written bytes, and its end completes as the attempt does. -/
theorem attemptIsItsClaimItemByItem : Obligations.AttemptIsItsClaimItemByItem := by
  rintro s bytes got more hw hq hp hb rfl
  rw [step_attempt hq hp, attemptStep_ok (by simp [hp]) hb]
  refine Eq.trans ?_ (core_run_inClaim (s := { s with
      attempts := s.attempts + 1, busPort := more,
      hist := s.hist ++ [.attempt s.addr s.wbuf s.rlen (.ok (if s.rlen = 0 then [] else bytes))] })
    hq.linesLow hp hw _ rfl s.devSetup).symm
  rw [commandBytes_claimItems]
  simp only [State.complete]
  cases finish s.req s.plan (if s.rlen = 0 then [] else bytes) with
  | error f => rfl
  | ok c => simp [State.completed, State.endOperation, hb]

end Sys2Proof.Machine
end

section
/-! PROOFS. What a step does not read (spec/10_state.md, spec/60_exceptions.md): the device's register, the history and
the draws; and, while an operation is in flight, the request port. -/

namespace Sys2Proof.Machine

/-! ## Outcomes up to a map of the next state -/

/-- An outcome with its next state mapped. -/
def mapNext (f : State → State) : Host.Outcome State Fault Refusal → Host.Outcome State Fault Refusal
  | .next t => .next (f t)
  | .fault r => .fault r
  | .refused r => .refused r

@[simp] theorem mapNext_next (f : State → State) (t : State) : mapNext f (.next t) = .next (f t) := rfl
@[simp] theorem mapNext_fault (f : State → State) (r : Fault) : mapNext f (.fault r) = .fault r := rfl
@[simp] theorem mapNext_refused (f : State → State) (r : Refusal) : mapNext f (.refused r) = .refused r := rfl

@[simp] theorem mapNext_eq_next {f : State → State} {o : Host.Outcome State Fault Refusal} {u : State} :
    mapNext f o = .next u ↔ ∃ t, o = .next t ∧ f t = u := by
  cases o <;> simp [mapNext]

@[simp] theorem mapNext_eq_fault {f : State → State} {o : Host.Outcome State Fault Refusal} {r : Fault} :
    mapNext f o = .fault r ↔ o = .fault r := by
  cases o <;> simp [mapNext]

@[simp] theorem mapNext_eq_refused {f : State → State} {o : Host.Outcome State Fault Refusal} {r : Refusal} :
    mapNext f o = .refused r ↔ o = .refused r := by
  cases o <;> simp [mapNext]

/-! ## The steps on an erased state

Each lemma says that the operation does on the erased state what it does on the state, up to what is erased. -/

theorem complete_erase (q : Request) (plan : Option ScanPlan) (bytes : List Byte) (s : State) :
    mapNext State.erase (s.erase.complete q plan bytes) = mapNext State.erase (s.complete q plan bytes) := by
  simp only [State.complete]
  cases finish q plan bytes <;> rfl

theorem accept_erase (q : Request) (s : State) :
    mapNext State.erase (accept q s.erase) = mapNext State.erase (accept q s) := by
  by_cases hi : s.phase = .idle
  · rcases accept_cases hi q with ⟨k, hp, -, ha⟩ | ⟨rfl, ha⟩ | ⟨pr, hp, hn, ha⟩ <;> rw [ha]
    · rw [accept_error (s := s.erase) hi hp]
      rfl
    · rw [accept_nothing (s := s.erase) hi]
      rfl
    · rw [accept_bus (s := s.erase) hi hp hn]
      rfl
  · rw [accept_busy hi, accept_busy (s := s.erase) hi]
    rfl

theorem attemptStep_erase (s : State) :
    mapNext State.erase (attemptStep s.erase) = mapNext State.erase (attemptStep s) := by
  match hb : s.busPort with
  | [] =>
    rw [attemptStep_wait hb, attemptStep_wait (s := s.erase) hb]
    rfl
  | out :: more =>
    by_cases hi : s.phase = .idle
    · have hw : ∀ t : State, t.phase = .idle → t.busPort = out :: more →
          attemptStep t = .fault .unwrittenRegister := fun t ht hbt => by
        simp [attemptStep, hbt, State.readWork, ht]
      rw [hw s hi hb, hw s.erase hi hb]
    · cases out with
      | ok bytes =>
        have hf : finish s.erase.req s.erase.plan (if s.erase.rlen = 0 then [] else bytes) =
            finish s.req s.plan (if s.rlen = 0 then [] else bytes) := rfl
        rw [attemptStep_ok hi hb, attemptStep_ok (s := s.erase) hi hb, hf]
        cases finish s.req s.plan (if s.rlen = 0 then [] else bytes) <;> rfl
      | fault k =>
        rw [attemptStep_fault hi hb, attemptStep_fault (s := s.erase) hi hb]
        by_cases hk : s.attempts + 1 ≤ s.maxRetries
        · rw [if_pos hk, if_pos (by exact hk)]
          rfl
        · rw [if_neg hk, if_neg (by exact hk)]
          rfl

theorem finishClaim_erase (got : List Byte) (s : State) :
    mapNext State.erase (finishClaim got s.erase) = mapNext State.erase (finishClaim got s) := by
  by_cases hi : s.phase = .idle
  · simp [finishClaim, State.readWork, State.erase, hi]
  · simp only [finishClaim, State.readWork_eq hi, State.readWork_eq (s := s.erase) hi]
    exact complete_erase s.req s.plan got s.closeClaim

theorem deliverByte_erase (b : Byte) (s : State) : (s.erase.deliverByte b).erase = (s.deliverByte b).erase := by
  cases hc : s.claim with
  | none => rw [State.deliverByte_free b hc, State.deliverByte_free b (s := s.erase) hc]; rfl
  | some c => rw [State.deliverByte_eq b hc, State.deliverByte_eq b (s := s.erase) hc]; rfl

theorem receiveWord_erase (hi lo : Byte) (s : State) :
    (s.erase.receiveWord hi lo).erase = (s.receiveWord hi lo).erase := by
  cases hc : s.claim with
  | none => rw [State.receiveWord_free hi lo hc, State.receiveWord_free hi lo (s := s.erase) hc]; rfl
  | some c => rw [State.receiveWord_eq hi lo hc, State.receiveWord_eq hi lo (s := s.erase) hc]; rfl

theorem exec_erase (i : Instr) (s : State) :
    mapNext State.erase (exec i s.erase) = mapNext State.erase (exec i s) := by
  cases i with
  | setup ref clk pol rst => exact accept_erase (.setup ref clk pol rst) s
  | readSingle ch mode => exact accept_erase (.readSingle ch mode) s
  | readRange start stop mode => exact accept_erase (.readRange start stop mode) s
  | readMultiple start count mode => exact accept_erase (.readMultiple start count mode) s
  | xfer w n => exact accept_erase (.xfer w n) s
  | reservedOp op => rfl
  | setupByte ref clk pol rst unused => exact congrArg Host.Outcome.next (deliverByte_erase _ s)
  | configBank0 cs mode => exact congrArg Host.Outcome.next (deliverByte_erase _ s)
  | configScanX cs mode => exact congrArg Host.Outcome.next (deliverByte_erase _ s)
  | configBank6 cs mode => exact congrArg Host.Outcome.next (deliverByte_erase _ s)
  | configOnly cs mode => exact congrArg Host.Outcome.next (deliverByte_erase _ s)
  | resultWord pad high low => exact congrArg Host.Outcome.next (receiveWord_erase _ _ s)

theorem popWire_erase (s : State) : s.erase.popWire = s.popWire.erase := by
  unfold State.popWire
  cases hc : s.claim <;> simp [State.erase, hc]

theorem codecReset_erase (s : State) : s.erase.codecReset.erase = s.codecReset.erase := by
  simp [State.codecReset, State.erase]

/-- R32, R33: the step on the erased state is the step, erased. -/
theorem step_erase (s : State) : mapNext State.erase (step s.erase) = mapNext State.erase (step s) := by
  have ha : nextAction s.erase = nextAction s := rfl
  unfold step
  rw [ha]
  cases nextAction s with
  | reset => exact congrArg Host.Outcome.next (codecReset_erase s)
  | power => rfl
  | attempt => exact attemptStep_erase s
  | wire x =>
    simp only [popWire_erase]
    exact exec_erase _ s.popWire
  | endClaim got => exact finishClaim_erase got s
  | backoff => rfl
  | waitRequest => rfl
  | take item =>
    have hc : s.erase.codes = s.codes := rfl
    simp only [hc]
    cases decodeRequest s.codes item with
    | error e => rfl
    | ok i => exact exec_erase i s.popRequest

/-- R38: what a caller can read is not erased. -/
theorem callerView_of_erase_eq {t t' : State} (h : t.erase = t'.erase) : t.callerView = t'.callerView :=
  calc t.callerView
    _ = t.erase.callerView := rfl
    _ = t'.erase.callerView := by rw [h]
    _ = t'.callerView := rfl

/-- Settles O56: both states step as their common erasure does. -/
theorem codecIgnoresDeviceAndHistory : Obligations.CodecIgnoresDeviceAndHistory := by
  intro s s' he
  have h : mapNext State.erase (step s') = mapNext State.erase (step s) := by
    rw [← step_erase s', ← he, step_erase s]
  refine ⟨fun t ht => ?_, fun f hf => ?_, fun r hr => ?_⟩
  · rw [ht, mapNext_next, mapNext_eq_next] at h
    obtain ⟨t', ht', he'⟩ := h
    exact ⟨t', ht', he'.symm, callerView_of_erase_eq he'.symm⟩
  · rwa [hf, mapNext_fault, mapNext_eq_fault] at h
  · rwa [hr, mapNext_refused, mapNext_eq_refused] at h

/-! ## The request port of a busy codec -/

/-- The state with other requests presented. -/
def State.withPort (port : List PortWord) (s : State) : State := { s with reqPort := port }

/-- R221: the draw reads the device's register and the counter alone. -/
theorem drawSetup_withPort (w : List Byte) (port : List PortWord) (s : State) :
    (s.withPort port).drawSetup w = (s.drawSetup w).withPort port := by
  unfold State.drawSetup
  split <;> rfl

theorem faulted_withPort (k : BusFaultKind) (port : List PortWord) (s : State) :
    (s.withPort port).faulted k = (s.faulted k).withPort port := by
  have hw : (s.withPort port).wbuf = s.wbuf := rfl
  unfold State.faulted
  rw [hw, drawSetup_withPort]
  rfl

theorem attemptStep_withPort (port : List PortWord) {s : State} (hne : s.phase ≠ .idle) :
    attemptStep (s.withPort port) = mapNext (State.withPort port) (attemptStep s) := by
  match hb : s.busPort with
  | [] =>
    rw [attemptStep_wait hb, attemptStep_wait (s := s.withPort port) hb]
    rfl
  | .ok bytes :: more =>
    have hf : finish (s.withPort port).req (s.withPort port).plan (if (s.withPort port).rlen = 0 then [] else bytes) =
        finish s.req s.plan (if s.rlen = 0 then [] else bytes) := rfl
    rw [attemptStep_ok hne hb, attemptStep_ok (s := s.withPort port) hne hb, hf]
    cases finish s.req s.plan (if s.rlen = 0 then [] else bytes) <;> rfl
  | .fault k :: more =>
    rw [attemptStep_fault hne hb, attemptStep_fault (s := s.withPort port) hne hb, faulted_withPort]
    by_cases hk : s.attempts + 1 ≤ s.maxRetries
    · rw [if_pos hk, if_pos (by exact hk)]
      rfl
    · rw [if_neg hk, if_neg (by exact hk)]
      rfl

/-- R219: a quiet busy step is the same whatever requests are presented. -/
theorem step_withPort (port : List PortWord) {s : State} (hq : s.quiet) (hne : s.phase ≠ .idle) :
    step (s.withPort port) = mapNext (State.withPort port) (step s) := by
  cases hp : s.phase with
  | idle => exact absurd hp hne
  | attempt => rw [step_attempt hq hp, step_attempt (s := s.withPort port) hq hp, attemptStep_withPort port hne]
  | backoff =>
    rw [step_backoff hq.linesLow hp, step_backoff (s := s.withPort port) hq.linesLow hp]
    rfl

/-- Settles O24: the step with the presented requests put back is the step. -/
theorem busyHoldsRequests : Obligations.BusyHoldsRequests := by
  intro s hq hne
  have hport : ∀ (port : List PortWord) (t : State), step s = .next t →
      step (s.withPort port) = .next (t.withPort port) := fun port t h => by
    rw [step_withPort port hq hne, h, mapNext_next]
  refine ⟨fun t h => ?_, hport, fun q => (exec_request q s).trans (accept_busy hne q)⟩
  have hself : step s = .next (t.withPort s.reqPort) := hport s.reqPort t h
  have ht : t = t.withPort s.reqPort := Host.Outcome.next.inj (h.symm.trans hself)
  calc t.reqPort
    _ = (t.withPort s.reqPort).reqPort := congrArg State.reqPort ht
    _ = s.reqPort := rfl

end Sys2Proof.Machine
end

section
/-! PROOFS. Whole operations (spec/45_operations.md): the accept step and one attempt that the bus answers. -/

namespace Sys2Proof.Machine

/-! ## Reads -/

/-- R162, R165, R168: a read reads at least one word. -/
theorem prepare_rlen_of_window {c : Codes} {q : Request} {pr : Prepared} (hp : prepare c q = .ok pr) {x : Nat × Nat}
    (hx : q.window = some x) : pr.rlen ≠ 0 := by
  rcases prepare_ok_cases hp with ⟨_, _, p, -, -, -, hr, h1, -⟩ | ⟨_, _, _, _, rfl, -⟩ | ⟨_, _, rfl, -⟩
  · omega
  · cases hx
  · cases hx

/-- A read answered at once ends with its completion, and leaves the device's register. -/
theorem core_run_read {s : State} {item : PortWord} {rest : List PortWord} {q : Request} {pr : Prepared}
    {bytes : List Byte} {more : List BusOutcome} {c : Completion} {x : Nat × Nat} (hr : s.ready item rest)
    (hd : decodeRequest s.codes item = .ok q.instr) (hp : prepare s.codes q = .ok pr) (hx : q.window = some x)
    (hb : s.busPort = .ok bytes :: more) (hf : finish q pr.plan bytes = .ok c) :
    ∃ t, Sys2Proof.core.run 2 s = .next t ∧ t.phase = .idle ∧ t.rsp = some (c.response 1) ∧
      t.devSetup = s.devSetup := by
  have hread : pr.rlen ≠ 0 := prepare_rlen_of_window hp hx
  have hrun := core_run_two hr hd hp (fun h => hread h.2) hb (by rwa [if_neg hread])
  exact ⟨_, hrun, rfl, rfl, lastSetup_none (prepare_wbuf_of_window hp hx) s.devSetup⟩

/-- R162: Finish of a READ_SINGLE on one word. -/
theorem finish_readSingle (ch : Int) (mode : InputMode) {p : ScanPlan} (hw : p.wordCount = 1)
    (hbase : p.baseChannel = ch.toNat) (hi lo : Byte) :
    finish (.readSingle ch mode) (some p) [hi, lo] = .ok (.payload (.sample (unpack hi lo))) := by
  simp [finish, finishReadSingle, decodeResult, hw, hbase, unpackWords]

/-- Settles O32: one config byte written, one word read and unpacked. -/
theorem readSingleResult : Obligations.ReadSingleResult := by
  intro s item rest hi lo more ch mode hr hd h0 h11 hb
  exact core_run_read (q := .readSingle ch mode) hr hd
    (prepareRead_plan s.codes mode (planSingle_eq_only h0 h11) (Int.toNat_of_nonneg h0) h11) rfl hb
    (finish_readSingle ch mode rfl rfl hi lo)

/-- R168: Prepare of a READ_MULTIPLE with a plan cannot fail. -/
theorem prepare_readMultiple (c : Codes) {start count : Int} (mode : InputMode) {p : ScanPlan}
    (h : planCount start count = .ok p) :
    ∃ pr, prepare c (.readMultiple start count mode) = .ok pr ∧ pr.plan = some p := by
  obtain ⟨-, -, h11, hbank⟩ := planCount_ok h
  obtain ⟨-, -, -, hlast, -⟩ := planBank_ok hbank
  exact ⟨_, prepareRead_plan c mode h hlast h11, rfl⟩

/-- R168: Finish of a READ_MULTIPLE on an answer of the planned length: each channel's sample from its own word. -/
theorem finish_readMultiple {start count : Int} (mode : InputMode) {p : ScanPlan} {bytes : List Byte}
    (h : planCount start count = .ok p) (hl : bytes.length = 2 * p.wordCount) :
    ∃ ss, finish (.readMultiple start count mode) (some p) bytes = .ok (.payload (.seq ss)) ∧
      ss.length = count.toNat ∧
      ∀ j, j < count.toNat →
        ss[j]? = some (unpack (bytes.getD (2 * (start.toNat + j - p.baseChannel)) 0)
          (bytes.getD (2 * (start.toNat + j - p.baseChannel) + 1) 0)) := by
  obtain ⟨ss, hd, hlen, hget⟩ := decodeResult_covers (planCount_covers h) hl
  exact ⟨ss, by simp only [finish, finishReadMultiple, hd], hlen, hget⟩

/-- R169: READ_MULTIPLE prepares as READ_RANGE of the same channels. -/
theorem prepare_readRange_of_readMultiple {c : Codes} {start count : Int} {mode : InputMode} {pr : Prepared}
    (h : prepare c (.readMultiple start count mode) = .ok pr) :
    prepare c (.readRange start (start + count - 1) mode) = .ok pr := by
  obtain ⟨p, hplan, -⟩ := prepareRead_ok h
  obtain ⟨-, -, -, hbank⟩ := planCount_ok hplan
  calc prepareRead c mode (planBank start (start + count - 1))
    _ = prepareRead c mode (planCount start count) := by rw [hplan, hbank]
    _ = .ok pr := h

/-- R169: and it finishes with the same samples, unlabelled. -/
theorem finish_readRange_of_readMultiple {start count : Int} {mode : InputMode} {plan : Option ScanPlan}
    {bytes : List Byte} {ss : List Sample}
    (h : finish (.readMultiple start count mode) plan bytes = .ok (.payload (.seq ss))) :
    finish (.readRange start (start + count - 1) mode) plan bytes =
      .ok (.payload (.map (labelSamples start.toNat ss))) := by
  have hcount : start + count - 1 - start + 1 = count := by omega
  cases plan with
  | none => cases h
  | some p =>
    simp only [finish, finishReadMultiple, finishReadRange, hcount] at h ⊢
    cases hd : decodeResult bytes p start.toNat count.toNat with
    | error e => rw [hd] at h; cases h
    | ok ss' => rw [hd] at h; cases h; rfl

/-- Settles O34: the plan of a count covers its channels, and is PLAN_BANK's of the same range. -/
theorem readMultipleResult : Obligations.ReadMultipleResult := by
  refine ⟨fun s item rest bytes more start count mode p hr hd hplan hl hb => ?_,
    fun c start count mode pr bytes ss hp => ⟨prepare_readRange_of_readMultiple hp, finish_readRange_of_readMultiple⟩⟩
  obtain ⟨pr, hp, hpr⟩ := prepare_readMultiple s.codes mode hplan
  obtain ⟨ss, hf, hlen, hget⟩ := finish_readMultiple mode hplan hl
  obtain ⟨t, hrun, hidle, hrsp, hdev⟩ :=
    core_run_read (q := .readMultiple start count mode) hr hd hp rfl hb (by rwa [hpr])
  exact ⟨t, ss, hrun, hidle, hrsp, hlen, hget, hdev⟩

/-! ## SETUP and XFER -/

/-- Settles O31: the one byte written is the setup byte the device retains. -/
theorem setupResult : Obligations.SetupResult := by
  intro s item rest bytes more ref clk pol rst hr hd hb
  have hrun := core_run_two (q := .setup ref clk pol rst) (c := .payload .empty) hr hd rfl (by simp) hb rfl
  have hdev : lastSetup s.devSetup [encSetup s.codes ref clk pol rst] = some (encSetup s.codes ref clk pol rst) := by
    rw [lastSetup_singleton, encSetup, isSetupByte_packSetup, if_pos rfl]
  exact ⟨_, hrun, rfl, rfl, hdev, congrArg List.tail hr.2.2, congrArg List.tail hb⟩

/-- R171: Finish of an XFER on an answer of the length asked for; with nothing to read there are no bytes (R53). -/
theorem finish_xfer (w : List Int) {n : Int} (hn : 0 ≤ n) (plan : Option ScanPlan) {bytes : List Byte}
    (hl : n ≠ 0 → (bytes.length : Int) = n) :
    finish (.xfer w n) plan (if n.toNat = 0 then [] else bytes) =
      .ok (.payload (if n = 0 then .empty else .bytes bytes)) := by
  by_cases h0 : n = 0
  · simp [finish, finishXfer, h0]
  · have hz : ¬ n.toNat = 0 := by omega
    simp [finish, finishXfer, h0, hz, hl h0]

/-- Settles O35: the caller's bytes written, and the bytes read handed back. -/
theorem xferResult : Obligations.XferResult := by
  intro s item rest bytes more w n hr hd hw hn hsome hb hl
  have hzero : (n.toNat = 0) = (n = 0) := propext (by omega)
  have hrun := core_run_two (q := .xfer w n) hr hd (prepare_xfer s.codes hw hn) (xfer_something hn hsome) hb
    (finish_xfer w hn none hl)
  refine ⟨_, hrun, rfl, rfl, rfl, ?_⟩
  simp only [hzero]
  exact List.append_assoc ..

end Sys2Proof.Machine
end

section
/-! PROOFS. The sequencer and EXEC (spec/43_bus_transaction.md R140, R141): from the accept step to the response the
steps follow EXEC's loop, and a bus that answers every attempt ends the operation. -/

namespace Sys2Proof.Machine

/-! ## How a run of EXEC shows in the codec -/

/-- The state after the attempts of a run of EXEC that began with history `h`: its response given, and the device and
the draws as they are by then. -/
def State.afterExec (run : ExecRun) (r : Response) (h : List Event) (d : Option Byte) (n : Nat) (s : State) : State :=
  { s with
    phase := .idle, attempts := run.attempts, lastf := run.lastf, busPort := run.rest, rsp := some r,
    hist := h ++ run.events ++ [.respond r], devSetup := d, draws := n, claim := none }

/-- The response and the device's register that a run of EXEC with a result comes to, for a request `q` writing `w` to a
device that held `old` (R138, R139, R221). -/
inductive ExecRun.EndsWith (q : Request) (plan : Option ScanPlan) (w : List Byte) (old : Option Byte) (run : ExecRun) :
    Response → Option Byte → Prop
  | bytes {bs : List Byte} {c : Completion} (hresult : run.result = .bytes bs) (hf : finish q plan bs = .ok c) :
      EndsWith q plan w old run (c.response run.attempts) (lastSetup old w)
  | fault {k : BusFaultKind} {d : Option Byte} (hresult : run.result = .error (.bus k))
      (hd : d ∈ setupCandidates old w) :
      EndsWith q plan w old run (errorResponse (.bus k) run.attempts) d

section
variable {q : Request} {plan : Option ScanPlan} {w : List Byte} {old d : Option Byte} {run : ExecRun} {r : Response}
  (h : run.EndsWith q plan w old r d)
include h

theorem ExecRun.EndsWith.attempts_eq : r.attempts = run.attempts := by
  cases h with
  | bytes hresult hf => exact Completion.response_attempts ..
  | fault hresult hd => rfl

theorem ExecRun.EndsWith.of_bytes {bs : List Byte} (hbs : run.result = .bytes bs) :
    ∃ c, finish q plan bs = .ok c ∧ r = c.response run.attempts ∧ d = lastSetup old w := by
  cases h with
  | bytes hresult hf =>
    cases hbs.symm.trans hresult
    exact ⟨_, hf, rfl, rfl⟩
  | fault hresult hd => cases hbs.symm.trans hresult

theorem ExecRun.EndsWith.of_error {e : Error} (he : run.result = .error e) :
    ∃ k, e = .bus k ∧ r = errorResponse e run.attempts ∧ d ∈ setupCandidates old w := by
  cases h with
  | bytes hresult hf => cases he.symm.trans hresult
  | fault hresult hd =>
    cases he.symm.trans hresult
    exact ⟨_, rfl, rfl, hd⟩

end

/-- The last setup byte of a write, if it has one, is what the device holds after it, whatever was uncertain before. -/
theorem lastSetup_of_mem_candidates {old d : Option Byte} {w : List Byte} (hd : d ∈ setupCandidates old w) :
    lastSetup d w = lastSetup old w := by
  unfold lastSetup
  cases hl : (w.filter isSetupByte).getLast? with
  | some b => rfl
  | none =>
    rw [setupCandidates, List.getLast?_eq_none_iff.1 hl] at hd
    exact List.mem_singleton.1 hd

/-- A fault before the run leaves the same candidates. -/
theorem ExecRun.EndsWith.of_candidate {q : Request} {plan : Option ScanPlan} {w : List Byte} {old d₀ d : Option Byte}
    {run : ExecRun} {r : Response} (hd₀ : d₀ ∈ setupCandidates old w) (h : run.EndsWith q plan w d₀ r d) :
    run.EndsWith q plan w old r d := by
  cases h with
  | bytes hresult hf =>
    rw [lastSetup_of_mem_candidates hd₀]
    exact .bytes hresult hf
  | fault hresult hd => exact .fault hresult (setupCandidates_trans hd₀ hd)

/-! ## The loop of EXEC, step by step -/

/-- R134, R135: a faulted attempt with a retry left, and the wait after it. -/
def State.retried (k : BusFaultKind) (s : State) : State :=
  { s.faulted k with hist := s.hist ++ [.attempt s.addr s.wbuf s.rlen (.fault k)] ++ [.wait s.retryDelay] }

theorem core_run_retry {s : State} (hq : s.quiet) (hp : s.phase = .attempt) {k : BusFaultKind} {more : List BusOutcome}
    (hb : s.busPort = .fault k :: more) (hk : s.attempts + 1 ≤ s.maxRetries) (m : Nat) :
    Sys2Proof.core.run (m + 2) s = Sys2Proof.core.run m (s.retried k) := by
  have hfault : step s = .next { s.faulted k with phase := .backoff } := by
    rw [step_attempt hq hp, attemptStep_fault (by simp [hp]) hb, if_pos hk]
  have hwait : step { s.faulted k with phase := .backoff } = .next (s.retried k) := by
    rw [step_backoff (s := { s.faulted k with phase := .backoff }) hq.linesLow rfl, backoffStep, State.retried,
      State.faulted, hp]
  rw [core_run_succ (m + 1) hfault, core_run_succ m hwait]

section
variable {s : State} {more : List BusOutcome} {h events : List Event} (hh : s.hist = h ++ events)
include hh

/-- R138: an attempt that returned `Ok` leaves what the last turn of EXEC's loop does. -/
theorem State.completed_eq_afterExec (got : List Byte) (c : Completion) (hb : s.busPort.tail = more) :
    s.completed got c =
      s.afterExec { attempts := s.attempts + 1, lastf := s.lastf,
                    events := events ++ [.attempt s.addr s.wbuf s.rlen (.ok got)], result := .bytes got, rest := more }
        (c.response (s.attempts + 1)) h (lastSetup s.devSetup s.wbuf) s.draws := by
  simp [State.completed, State.afterExec, hb, hh]

/-- R139: and so does the fault that surfaces. -/
theorem State.faulted_end_eq_afterExec (k : BusFaultKind) (hb : s.busPort.tail = more) (hc : s.claim = none) :
    (s.faulted k).endWith (.bus k) =
      s.afterExec { attempts := s.attempts + 1, lastf := some k,
                    events := events ++ [.attempt s.addr s.wbuf s.rlen (.fault k)], result := .error (.bus k),
                    rest := more }
        (errorResponse (.bus k) (s.attempts + 1)) h (s.drawSetup s.wbuf).devSetup (s.drawSetup s.wbuf).draws := by
  simp [State.faulted, State.endWith, State.endOperation, State.afterExec, hb, hh, hc]

end

/-- R141: from an attempt to the response, one step for an attempt and one for a wait. -/
theorem core_run_execLoop (outs : List BusOutcome) {s : State} (hq : s.quiet) (hp : s.phase = .attempt)
    (hfin : ∀ bs, ∃ c, finish s.req s.plan bs = .ok c) (hb : s.busPort = outs) {h events : List Event}
    (hh : s.hist = h ++ events) {run : ExecRun}
    (hrun : run = execLoop s.addr s.maxRetries s.retryDelay s.wbuf s.rlen s.attempts s.lastf events outs)
    (hw : run.result ≠ .waiting) :
    ∃ m r d n, run.attempts = s.attempts + m + 1 ∧ run.EndsWith s.req s.plan s.wbuf s.devSetup r d ∧
      Sys2Proof.core.run (2 * m + 1) s = .next (s.afterExec run r h d n) := by
  induction outs generalizing s events with
  | nil => exact absurd (congrArg ExecRun.result hrun) hw
  | cons raw rest ih =>
    cases raw with
    | ok bytes =>
      rw [execLoop_of_ok (BusOutcome.admitted_ok s.rlen bytes)] at hrun
      subst hrun
      obtain ⟨c, hf⟩ := hfin (if s.rlen = 0 then [] else bytes)
      have hstep := (step_attempt hq hp).trans ((attemptStep_ok_next_iff (by simp [hp]) hb).2 ⟨c, hf, rfl⟩)
      rw [State.completed_eq_afterExec hh _ c (congrArg List.tail hb)] at hstep
      exact ⟨0, _, _, _, rfl, .bytes rfl hf, (core_run_one s).trans hstep⟩
    | fault k =>
      by_cases hk : s.attempts + 1 ≤ s.maxRetries
      · rw [execLoop_of_retry rfl hk] at hrun
        obtain ⟨m, r, d, n, hm, hends, hsteps⟩ := ih (s := s.retried k) hq hp hfin
          (congrArg List.tail hb) (by simp [State.retried, hh]) hrun
        refine ⟨m + 1, r, d, n, ?_, hends.of_candidate (s.drawSetup_mem s.wbuf), ?_⟩
        · rw [hm]
          simp only [State.retried, State.faulted]
          omega
        · exact (core_run_retry hq hp hb hk (2 * m + 1)).trans hsteps
      · rw [execLoop_of_lastFault rfl hk] at hrun
        subst hrun
        have hstep := (step_attempt hq hp).trans ((attemptStep_fault (by simp [hp]) hb).trans (if_neg hk))
        rw [State.faulted_end_eq_afterExec hh k (congrArg List.tail hb) hq.claimNone] at hstep
        exact ⟨0, _, _, _, rfl, .fault rfl (s.drawSetup_mem s.wbuf), (core_run_one s).trans hstep⟩

/-! ## From IDLE to IDLE -/

/-- R136: a ready codec's step accepts the request presented. -/
theorem step_ready {s : State} {item : PortWord} {rest : List PortWord} {q : Request} (hr : s.ready item rest)
    (hd : decodeRequest s.codes item = .ok q.instr) : step s = accept q s.popRequest := by
  obtain ⟨hq, hi, hport⟩ := hr
  rw [step_take hq.linesLow hi hport, hd]
  exact exec_request q s.popRequest

section
variable {s : State} {item : PortWord} {rest : List PortWord} {q : Request} {pr : Prepared} {run : ExecRun}
  (hr : s.ready item rest) (hd : decodeRequest s.codes item = .ok q.instr) (hp : prepare s.codes q = .ok pr)
include hr hd hp

/-- R141: an operation that goes to the bus. -/
theorem core_run_transaction (hn : ¬(pr.wbuf = [] ∧ pr.rlen = 0))
    (hrun : run = execLoop s.addr s.maxRetries s.retryDelay pr.wbuf pr.rlen 0 none [] s.busPort)
    (hw : run.result ≠ .waiting) :
    ∃ r d n, 1 ≤ run.attempts ∧ run.EndsWith q pr.plan pr.wbuf s.devSetup r d ∧
      Sys2Proof.core.run (2 * run.attempts) s =
        .next ((s.popRequest.accepted q pr.plan pr.wbuf pr.rlen).afterExec run r (s.hist ++ [.accept q.op q]) d n) := by
  have hfin : ∀ bs, ∃ c, finish q pr.plan bs = .ok c := fun bs => by
    rcases finish_total hp bs with ⟨p, hf⟩ | ⟨hf, -⟩
    · exact ⟨_, hf⟩
    · exact ⟨_, hf⟩
  have haccept := (step_ready hr hd).trans (accept_bus (s := s.popRequest) hr.2.1 hp hn)
  obtain ⟨m, r, d, n, hm, hends, hsteps⟩ := core_run_execLoop s.busPort
    (s := s.popRequest.accepted q pr.plan pr.wbuf pr.rlen) hr.1 rfl hfin rfl (List.append_nil _).symm hrun hw
  have htotal : 2 * run.attempts = 2 * m + 1 + 1 := by
    rw [hm]
    simp only [State.accepted]
    omega
  refine ⟨r, d, n, by omega, hends, ?_⟩
  rw [htotal, core_run_succ _ haccept]
  exact hsteps

end

/-- R140: on bytes EXEC's own checks pass. -/
theorem execTransaction_bytes (addr : Bits7) (maxRetries retryDelay : Nat) (w : List Byte) (n : Nat)
    (outs : List BusOutcome) :
    execTransaction addr maxRetries retryDelay (w.map fun b => (b.toNat : Int)) n outs =
      if w = [] ∧ n = 0 then { attempts := 0, lastf := none, events := [], result := .bytes [], rest := outs }
      else execLoop addr maxRetries retryDelay w n 0 none [] outs := by
  simp only [execTransaction, checkTransfer_bytes]

/-- R131: an XFER whose Prepare fails fails EXEC's own checks. -/
theorem execTransaction_error {c : Codes} {w : List Int} {n : Int} {e : Error}
    (h : prepare c (.xfer w n) = .error e) (addr : Bits7) (maxRetries retryDelay : Nat) (outs : List BusOutcome) :
    execTransaction addr maxRetries retryDelay w n outs =
      { attempts := 0, lastf := none, events := [], result := .error e, rest := outs } := by
  simp only [prepare, prepareXfer] at h
  rcases checkTransfer_cases w n with ⟨hc, -⟩ | ⟨hc, -⟩ | ⟨hc, -⟩ <;> rw [hc] at h <;> cases h <;>
    simp only [execTransaction, hc]

/-- Settles O38: with nothing to do the accept step is all; otherwise the steps follow EXEC's loop. An XFER that fails
EXEC's checks fails those of its accept step. -/
theorem sequencerAgreesWithExec : Obligations.SequencerAgreesWithExec := by
  refine ⟨fun s item rest q pr run hr hd hp hrun => ?_, fun s item rest w n e run hr hd hp hrun => ?_⟩
  · rw [execTransaction_bytes] at hrun
    by_cases hn : pr.wbuf = [] ∧ pr.rlen = 0
    · rw [if_pos hn] at hrun
      obtain ⟨rfl, hplan⟩ := prepare_nothing hp hn
      subst hrun
      refine ⟨fun bs hbs => ?_, fun e he => by cases he⟩
      cases hbs
      have hstep := (step_ready hr hd).trans (accept_nothing (s := s.popRequest) hr.2.1)
      refine ⟨_, .payload .empty, rfl, (core_run_one s).trans hstep, rfl, rfl, rfl, rfl, ?_, rfl, ?_⟩
      · simp [State.doneNothing, State.popRequest, Completion.response, Request.op]
      · rw [hn.1]
        rfl
    · rw [if_neg hn] at hrun
      refine ⟨fun bs hbs => ?_, fun e he => ?_⟩
      · obtain ⟨r, d, n, h1, hends, hsteps⟩ := core_run_transaction hr hd hp hn hrun (by simp [hbs])
        obtain ⟨c, hf, rfl, rfl⟩ := hends.of_bytes hbs
        rw [Nat.max_eq_right (by omega)]
        exact ⟨_, c, hf, hsteps, rfl, rfl, rfl, rfl, by simp [State.afterExec], rfl, rfl⟩
      · obtain ⟨r, d, n, h1, hends, hsteps⟩ := core_run_transaction hr hd hp hn hrun (by simp [he])
        obtain ⟨k, rfl, rfl, hdev⟩ := hends.of_error he
        exact ⟨_, k, rfl, hsteps, rfl, rfl, rfl, rfl, by simp [State.afterExec], rfl, hdev⟩
  · rw [execTransaction_error hp] at hrun
    subst hrun
    obtain ⟨k, rfl, -⟩ := prepare_error hp
    have hstep := (step_ready (q := .xfer w n) hr hd).trans (accept_error (s := s.popRequest) hr.2.1 hp)
    exact ⟨rfl, _, (core_run_one s).trans hstep, rfl, rfl, rfl, rfl, (List.append_assoc s.hist [_] [_]).symm, rfl, rfl⟩

/-! ## Termination -/

/-- R252: a bus that answers each attempt the budget allows leaves EXEC none to wait for. -/
theorem execLoop_ends (addr : Bits7) {maxRetries : Nat} (retryDelay : Nat) (w : List Byte) (n : Nat) {attempts : Nat}
    (lastf : Option BusFaultKind) (events : List Event) {outs : List BusOutcome}
    (h : maxRetries + 1 ≤ attempts + outs.length) (hb : attempts ≤ maxRetries) :
    (execLoop addr maxRetries retryDelay w n attempts lastf events outs).result ≠ .waiting := by
  induction outs generalizing attempts lastf events with
  | nil =>
    rw [List.length_nil] at h
    omega
  | cons raw rest ih =>
    cases ho : raw.admitted n with
    | ok bs => simp [execLoop_of_ok ho]
    | fault k =>
      by_cases hk : attempts + 1 ≤ maxRetries
      · rw [execLoop_of_retry ho hk]
        rw [List.length_cons] at h
        exact ih _ _ (by omega) hk
      · simp [execLoop_of_lastFault ho hk]

/-- Settles O40: an operation ends in its accept step, or when EXEC's loop does, within its budget. -/
theorem operationsEndWhenTheBusAnswers : Obligations.OperationsEndWhenTheBusAnswers := by
  intro s item rest q hr hd hbus
  have hport : s.popRequest.reqPort = rest := congrArg List.tail hr.2.2
  have hstep := step_ready hr hd
  rcases accept_cases (s := s.popRequest) hr.2.1 q with ⟨k, -, -, ha⟩ | ⟨-, ha⟩ | ⟨pr, hp, hn, -⟩
  · exact ⟨1, _, _, le_rfl, by omega, (core_run_one s).trans (hstep.trans ha), rfl, rfl, Nat.zero_le _, hport⟩
  · exact ⟨1, _, _, le_rfl, by omega, (core_run_one s).trans (hstep.trans ha), rfl, rfl, Nat.zero_le _, hport⟩
  · have hended := execLoop_ends s.addr (maxRetries := s.maxRetries) (outs := s.busPort) s.retryDelay pr.wbuf pr.rlen
      (attempts := 0) none [] (by omega) (Nat.zero_le _)
    obtain ⟨r, d, n, h1, hends, hsteps⟩ := core_run_transaction hr hd hp hn rfl hended
    obtain ⟨-, -, hbudget, -⟩ := execLoop_withinBudget (addr := s.addr) (maxRetries := s.maxRetries)
      (retryDelay := s.retryDelay) (w := pr.wbuf) (n := pr.rlen) none s.busPort .nil (Nat.zero_le _)
    exact ⟨_, _, r, by omega, by omega, hsteps, rfl, rfl, hends.attempts_eq.trans_le hbudget, hport⟩

end Sys2Proof.Machine
end
